-- ==== Sys2Proof/Word.lean ====
section
/-! DEFINITION. The widths of 00_scope.md R6: bytes, 16-bit words, the 12-bit immediate, register numbers. -/

namespace Sys2Proof

/-- One memory byte, register or timer (8 bits, R6). -/
abbrev Byte := BitVec 8

/-- An opcode, a pc, an index-register value or a stack entry (16 bits, R6). -/
abbrev Word := BitVec 16

/-- The immediate NNN (12 bits, 30_encoding.md R46). -/
abbrev Addr12 := BitVec 12

/-- A register number X or Y, 0 to 15 (10_state.md R10). -/
abbrev Reg := Fin 16

/-- VF, the register that doubles as the flag (10_state.md R11). -/
abbrev VF : Reg := 15

end Sys2Proof
end

