-- ==== Sys2Proof/Machine/Flags.lean ====
section
/-! DEFINITION. The flag computations of 41_alu.md R79: carry out, no borrow, and the bit a shift moves out. All operands
are unsigned (R8). -/

namespace Sys2Proof.Machine

/-- A Boolean as the flag byte, 1 or 0. -/
def flagByte (b : Bool) : Byte := if b then 1 else 0

/-- The carry of an addition: 1 exactly when the sum of the operands exceeds 255 (R86). -/
def carryOut (a b : Byte) : Byte := flagByte (decide (255 < a.toNat + b.toNat))

/-- "No borrow" of `minuend - subtrahend`: 1 exactly when the minuend is at least the subtrahend (R87, R89). -/
def noBorrow (minuend subtrahend : Byte) : Byte := flagByte (decide (subtrahend.toNat ≤ minuend.toNat))

/-- The bit a right shift by one moves out, bit 0 (R88). -/
def bitOutRight (a : Byte) : Byte := a &&& 1

/-- The bit a left shift by one moves out, bit 7 (R90). -/
def bitOutLeft (a : Byte) : Byte := (a >>> 7) &&& 1

end Sys2Proof.Machine
end

