-- ==== Sys2Proof/Config.lean ====
section
/-! DEFINITION. The named parameters of 00_scope.md R7: two are plain data, fixed for one machine (STRICT_DECODE and
GLYPH_TABLE); two are free values with no body (RAND and KEY_SELECT), so that no proof can know what they are. -/

namespace Sys2Proof

/-- The parameters that are plain data. A machine carries them in its state, where no transition changes them, so a
claim about every state is a claim about every value of them (log 2, log 3). -/
structure Config where
  /-- `STRICT_DECODE` (R7, R52): whether an unmatched opcode raises UnknownOpcode. -/
  strictDecode : Bool
  /-- `GLYPH_TABLE` (R7, R21): the 80 bytes copied to 0x050 to 0x09F at construction. -/
  glyphTable : List Byte
  deriving DecidableEq, Repr

/-- The default glyph bytes, digits 0 to 7 (10_state.md R21; PRESUMED by the spec itself, log 2). -/
def Config.glyphsLow : List Byte :=
  [0xF0, 0x90, 0x90, 0x90, 0xF0] ++ [0x20, 0x60, 0x20, 0x20, 0x70] ++
  [0xF0, 0x10, 0xF0, 0x80, 0xF0] ++ [0xF0, 0x10, 0xF0, 0x10, 0xF0] ++
  [0x90, 0x90, 0xF0, 0x10, 0x10] ++ [0xF0, 0x80, 0xF0, 0x10, 0xF0] ++
  [0xF0, 0x80, 0xF0, 0x90, 0xF0] ++ [0xF0, 0x10, 0x20, 0x40, 0x40]

/-- The default glyph bytes, digits 8 to F (10_state.md R21; PRESUMED by the spec itself, log 2). -/
def Config.glyphsHigh : List Byte :=
  [0xF0, 0x90, 0xF0, 0x90, 0xF0] ++ [0xF0, 0x90, 0xF0, 0x10, 0xF0] ++
  [0xF0, 0x90, 0xF0, 0x90, 0x90] ++ [0xE0, 0x90, 0xE0, 0x90, 0xE0] ++
  [0xF0, 0x80, 0x80, 0x80, 0xF0] ++ [0xE0, 0x90, 0x90, 0x90, 0xE0] ++
  [0xF0, 0x80, 0xF0, 0x80, 0xF0] ++ [0xF0, 0x80, 0xF0, 0x80, 0x80]

/-- The defaults of R7: permissive decode and the table of R21. -/
def Config.default : Config :=
  { strictDecode := false, glyphTable := Config.glyphsLow ++ Config.glyphsHigh }

/-- `RAND` (R7, R102, D19): the byte of draw number `n`. A free value: it has no body, so a claim holds whatever the
bytes are. DESIGN CHOICE of form, log 4. -/
opaque Config.randByte : Nat → Byte

/-- The free choice behind `KEY_SELECT` (R7, R123, D14): from the 16 key cells, a number that picks one of the pressed
keys. A free value: it has no body. DESIGN CHOICE of form, log 5. -/
opaque Config.keyPick : Vector Bool 16 → Nat

end Sys2Proof
end

