-- ==== Sys2Proof/Syntax.lean ====
section
/-! DEFINITION. The 34 operations of 30_encoding.md R50, one constructor per row of spec/opcode_table.json, with the
operand fields of R46 at their own widths. -/

namespace Sys2Proof

/-- The instruction set. Operands: `x`, `y` register numbers, `nn` the 8-bit and `nnn` the 12-bit immediate, `n` the
4-bit sprite height. -/
inductive Instr where
  /-- 00E0 CLS (R65). -/
  | cls
  /-- 00EE RET (R66). -/
  | ret
  /-- 1NNN JP NNN (R67). -/
  | jp (nnn : Addr12)
  /-- 2NNN CALL NNN (R68). -/
  | call (nnn : Addr12)
  /-- 3XNN SE VX, NN (R69). -/
  | seImm (x : Reg) (nn : Byte)
  /-- 4XNN SNE VX, NN (R70). -/
  | sneImm (x : Reg) (nn : Byte)
  /-- 5XY0 SE VX, VY (R71). -/
  | seReg (x y : Reg)
  /-- 6XNN LD VX, NN (R80). -/
  | ldImm (x : Reg) (nn : Byte)
  /-- 7XNN ADD VX, NN (R81). -/
  | addImm (x : Reg) (nn : Byte)
  /-- 8XY0 LD VX, VY (R82). -/
  | ldReg (x y : Reg)
  /-- 8XY1 OR VX, VY (R83). -/
  | orReg (x y : Reg)
  /-- 8XY2 AND VX, VY (R84). -/
  | andReg (x y : Reg)
  /-- 8XY3 XOR VX, VY (R85). -/
  | xorReg (x y : Reg)
  /-- 8XY4 ADD VX, VY (R86). -/
  | addReg (x y : Reg)
  /-- 8XY5 SUB VX, VY (R87). -/
  | subReg (x y : Reg)
  /-- 8XY6 SHR VX (R88). `y` is decoded and not used. -/
  | shr (x y : Reg)
  /-- 8XY7 SUBN VX, VY (R89). -/
  | subnReg (x y : Reg)
  /-- 8XYE SHL VX (R90). `y` is decoded and not used. -/
  | shl (x y : Reg)
  /-- 9XY0 SNE VX, VY (R72). -/
  | sneReg (x y : Reg)
  /-- ANNN LD I, NNN (R100). -/
  | ldI (nnn : Addr12)
  /-- BNNN JP V0, NNN (R101). -/
  | jpV0 (nnn : Addr12)
  /-- CXNN RND VX, NN (R102). -/
  | rnd (x : Reg) (nn : Byte)
  /-- DXYN DRW VX, VY, N (R110). -/
  | drw (x y : Reg) (n : Fin 16)
  /-- EX9E SKP VX (R120). -/
  | skp (x : Reg)
  /-- EXA1 SKNP VX (R121). -/
  | sknp (x : Reg)
  /-- FX07 LD VX, DT (R122). -/
  | ldVxDt (x : Reg)
  /-- FX0A LD VX, K (R123). -/
  | ldVxK (x : Reg)
  /-- FX15 LD DT, VX (R124). -/
  | ldDtVx (x : Reg)
  /-- FX18 LD ST, VX (R125). -/
  | ldStVx (x : Reg)
  /-- FX1E ADD I, VX (R135). -/
  | addI (x : Reg)
  /-- FX29 LD F, VX (R136). -/
  | ldF (x : Reg)
  /-- FX33 LD B, VX (R137). -/
  | ldB (x : Reg)
  /-- FX55 LD [I], VX (R138). -/
  | storeRegs (x : Reg)
  /-- FX65 LD VX, [I] (R139). -/
  | loadRegs (x : Reg)
  deriving DecidableEq, Repr

/-- The mnemonic of an instruction's row in spec/opcode_table.json (R50, R55). -/
def Instr.mnemonic : Instr → String
  | .cls => "CLS"
  | .ret => "RET"
  | .jp _ => "JP_NNN"
  | .call _ => "CALL_NNN"
  | .seImm _ _ => "SE_VX__NN"
  | .sneImm _ _ => "SNE_VX__NN"
  | .seReg _ _ => "SE_VX__VY"
  | .ldImm _ _ => "LD_VX__NN"
  | .addImm _ _ => "ADD_VX__NN"
  | .ldReg _ _ => "LD_VX__VY"
  | .orReg _ _ => "OR_VX__VY"
  | .andReg _ _ => "AND_VX__VY"
  | .xorReg _ _ => "XOR_VX__VY"
  | .addReg _ _ => "ADD_VX__VY"
  | .subReg _ _ => "SUB_VX__VY"
  | .shr _ _ => "SHR_VX"
  | .subnReg _ _ => "SUBN_VX__VY"
  | .shl _ _ => "SHL_VX"
  | .sneReg _ _ => "SNE_VX__VY"
  | .ldI _ => "LD_I__NNN"
  | .jpV0 _ => "JP_V0__NNN"
  | .rnd _ _ => "RND_VX__NN"
  | .drw _ _ _ => "DRW_VX__VY__N"
  | .skp _ => "SKP_VX"
  | .sknp _ => "SKNP_VX"
  | .ldVxDt _ => "LD_VX__DT"
  | .ldVxK _ => "LD_VX__K"
  | .ldDtVx _ => "LD_DT__VX"
  | .ldStVx _ => "LD_ST__VX"
  | .addI _ => "ADD_I__VX"
  | .ldF _ => "LD_F__VX"
  | .ldB _ => "LD_B__VX"
  | .storeRegs _ => "LD__I___VX"
  | .loadRegs _ => "LD_VX___I"

end Sys2Proof
end

