-- ==== Sys2Proof/WellFormed.lean ====
section
/-! DEFINITION. The checks on what is handed to the machine. An instruction needs none: each operand field of `Instr`
has exactly the width of 30_encoding.md R46, so every term of `Instr` is a well-formed instruction. What can be ill formed
is a parameter, a program image or a host call. -/

namespace Sys2Proof

/-- GLYPH_TABLE holds 80 bytes, 16 glyphs of 5 (R7, R21). -/
def Config.wellFormed (c : Config) : Bool := c.glyphTable.length == 80

/-- The largest program image, 0xFFF - 0x200 + 1 bytes (R6, R182). -/
def maxImageBytes : Nat := 3584

/-- A program image the load accepts (R182): at most 3584 bytes; 0 bytes and an odd length are legal (D22). -/
def imageWellFormed (bytes : List Byte) : Bool := decide (bytes.length ≤ maxImageBytes)

/-- A key index that `set_key` accepts (R170): 0 to 15. -/
def keyIndexWellFormed (k : Nat) : Bool := decide (k < 16)

end Sys2Proof
end

