-- ==== Sys2Proof/Decode.lean ====
section
/-! DEFINITION. The decoder of 30_encoding.md R45 to R54, total on any bytes and rejecting by name; after it the encoder,
written from the same patterns, and the opcode table itself (spec/opcode_table.json) as data to hold both against. -/

namespace Sys2Proof

/-- Why bytes are no instruction. -/
inductive Reject where
  /-- The word `w` matches no row of R50: an unmatched opcode (R52, R53). -/
  | unmatched (w : Word)
  /-- Fewer than the 2 bytes of an instruction (R54): `n` of them. -/
  | truncated (n : Nat)
  deriving DecidableEq, Repr

/-- `hi * 256 + lo`: the opcode of two bytes, big-endian (R45, R36). -/
def wordOfBytes (hi lo : Byte) : Word := BitVec.ofNat 16 (hi.toNat * 256 + lo.toNat)

/-- The byte of an opcode at the lower address (R36). -/
def highByte (w : Word) : Byte := BitVec.ofNat 8 (w.toNat / 256)

/-- The byte of an opcode at the higher address (R36). -/
def lowByte (w : Word) : Byte := BitVec.ofNat 8 w.toNat

/-- Field op, opcode[15:12] (R46). -/
def opField (w : Word) : Nat := w.toNat / 0x1000

/-- Field X, opcode[11:8] (R46). -/
def xField (w : Word) : Reg := Fin.ofNat 16 (w.toNat / 0x100)

/-- Field Y, opcode[7:4] (R46). -/
def yField (w : Word) : Reg := Fin.ofNat 16 (w.toNat / 0x10)

/-- Field N, opcode[3:0] (R46). -/
def nField (w : Word) : Fin 16 := Fin.ofNat 16 w.toNat

/-- Field NN, opcode[7:0] (R46). -/
def nnField (w : Word) : Byte := BitVec.ofNat 8 w.toNat

/-- Field NNN, opcode[11:0] (R46). -/
def nnnField (w : Word) : Addr12 := BitVec.ofNat 12 w.toNat

/-- Group 0, by the whole word (R51: every digit of 00E0 and 00EE is fixed). -/
def decodeGroup0 (w : Word) : Except Reject Instr :=
  if w.toNat = 0x00E0 then .ok .cls
  else if w.toNat = 0x00EE then .ok .ret
  else .error (.unmatched w)

/-- Groups 5 and 9, whose digit N is fixed at 0 (R51). -/
def decodeN0 (w : Word) (i : Instr) : Except Reject Instr :=
  if (nField w).val = 0 then .ok i else .error (.unmatched w)

/-- Group 8, by N (R50). -/
def decodeGroup8 (w : Word) : Except Reject Instr :=
  match (nField w).val with
  | 0x0 => .ok (.ldReg (xField w) (yField w))
  | 0x1 => .ok (.orReg (xField w) (yField w))
  | 0x2 => .ok (.andReg (xField w) (yField w))
  | 0x3 => .ok (.xorReg (xField w) (yField w))
  | 0x4 => .ok (.addReg (xField w) (yField w))
  | 0x5 => .ok (.subReg (xField w) (yField w))
  | 0x6 => .ok (.shr (xField w) (yField w))
  | 0x7 => .ok (.subnReg (xField w) (yField w))
  | 0xE => .ok (.shl (xField w) (yField w))
  | _ => .error (.unmatched w)

/-- Group E, by NN (R50). -/
def decodeGroupE (w : Word) : Except Reject Instr :=
  match (nnField w).toNat with
  | 0x9E => .ok (.skp (xField w))
  | 0xA1 => .ok (.sknp (xField w))
  | _ => .error (.unmatched w)

/-- Group F, by NN (R50). -/
def decodeGroupF (w : Word) : Except Reject Instr :=
  match (nnField w).toNat with
  | 0x07 => .ok (.ldVxDt (xField w))
  | 0x0A => .ok (.ldVxK (xField w))
  | 0x15 => .ok (.ldDtVx (xField w))
  | 0x18 => .ok (.ldStVx (xField w))
  | 0x1E => .ok (.addI (xField w))
  | 0x29 => .ok (.ldF (xField w))
  | 0x33 => .ok (.ldB (xField w))
  | 0x55 => .ok (.storeRegs (xField w))
  | 0x65 => .ok (.loadRegs (xField w))
  | _ => .error (.unmatched w)

/-- Decode one word (R50): dispatch on the top 4 bits, and within groups 0, 5, 8, 9, E and F on the low digits. -/
def decode (w : Word) : Except Reject Instr :=
  match opField w with
  | 0x0 => decodeGroup0 w
  | 0x1 => .ok (.jp (nnnField w))
  | 0x2 => .ok (.call (nnnField w))
  | 0x3 => .ok (.seImm (xField w) (nnField w))
  | 0x4 => .ok (.sneImm (xField w) (nnField w))
  | 0x5 => decodeN0 w (.seReg (xField w) (yField w))
  | 0x6 => .ok (.ldImm (xField w) (nnField w))
  | 0x7 => .ok (.addImm (xField w) (nnField w))
  | 0x8 => decodeGroup8 w
  | 0x9 => decodeN0 w (.sneReg (xField w) (yField w))
  | 0xA => .ok (.ldI (nnnField w))
  | 0xB => .ok (.jpV0 (nnnField w))
  | 0xC => .ok (.rnd (xField w) (nnField w))
  | 0xD => .ok (.drw (xField w) (yField w) (nField w))
  | 0xE => decodeGroupE w
  | 0xF => decodeGroupF w
  | _ => .error (.unmatched w)

/-- Decode the first instruction of a byte sequence, giving it and the bytes after it (R45, R54). -/
def decodeBytes : List Byte → Except Reject (Instr × List Byte)
  | hi :: lo :: rest =>
    match decode (wordOfBytes hi lo) with
    | .ok i => .ok (i, rest)
    | .error e => .error e
  | bs => .error (.truncated bs.length)

/-- The decoder on an instruction's bits, numbered as spec/opcode_table.json numbers them: the bits above `nbits` are 0,
and the two bytes lie high byte first (R36). -/
def decodeTableWord (nbits w : Nat) : Option Instr :=
  let bits := w % 2 ^ nbits
  if bits < 0x10000 then
    match decodeBytes [highByte (BitVec.ofNat 16 bits), lowByte (BitVec.ofNat 16 bits)] with
    | .ok (i, _) => some i
    | .error _ => none
  else none

/-- The word of a format-FI instruction: `oooo XXXX NNNN NNNN` (R47). -/
def wordFI (op : Nat) (x : Reg) (nn : Byte) : Nat := op * 0x1000 + x.val * 0x100 + nn.toNat

/-- The word of a format-FR instruction: `oooo XXXX YYYY ffff` (R47); format FD has N in the place of the function. -/
def wordFR (op : Nat) (x y : Reg) (f : Nat) : Nat := op * 0x1000 + x.val * 0x100 + y.val * 0x10 + f

/-- The word of a format-FX instruction: `oooo XXXX ffff ffff` (R47). -/
def wordFX (op : Nat) (x : Reg) (f : Nat) : Nat := op * 0x1000 + x.val * 0x100 + f

/-- The word of an instruction as a number: its row's pattern with the fields filled in (R50, R55). -/
def encodeNat : Instr → Nat
  | .cls => 0x00E0
  | .ret => 0x00EE
  | .jp nnn => 0x1000 + nnn.toNat
  | .call nnn => 0x2000 + nnn.toNat
  | .seImm x nn => wordFI 0x3 x nn
  | .sneImm x nn => wordFI 0x4 x nn
  | .seReg x y => wordFR 0x5 x y 0x0
  | .ldImm x nn => wordFI 0x6 x nn
  | .addImm x nn => wordFI 0x7 x nn
  | .ldReg x y => wordFR 0x8 x y 0x0
  | .orReg x y => wordFR 0x8 x y 0x1
  | .andReg x y => wordFR 0x8 x y 0x2
  | .xorReg x y => wordFR 0x8 x y 0x3
  | .addReg x y => wordFR 0x8 x y 0x4
  | .subReg x y => wordFR 0x8 x y 0x5
  | .shr x y => wordFR 0x8 x y 0x6
  | .subnReg x y => wordFR 0x8 x y 0x7
  | .shl x y => wordFR 0x8 x y 0xE
  | .sneReg x y => wordFR 0x9 x y 0x0
  | .ldI nnn => 0xA000 + nnn.toNat
  | .jpV0 nnn => 0xB000 + nnn.toNat
  | .rnd x nn => wordFI 0xC x nn
  | .drw x y n => wordFR 0xD x y n.val
  | .skp x => wordFX 0xE x 0x9E
  | .sknp x => wordFX 0xE x 0xA1
  | .ldVxDt x => wordFX 0xF x 0x07
  | .ldVxK x => wordFX 0xF x 0x0A
  | .ldDtVx x => wordFX 0xF x 0x15
  | .ldStVx x => wordFX 0xF x 0x18
  | .addI x => wordFX 0xF x 0x1E
  | .ldF x => wordFX 0xF x 0x29
  | .ldB x => wordFX 0xF x 0x33
  | .storeRegs x => wordFX 0xF x 0x55
  | .loadRegs x => wordFX 0xF x 0x65

/-- The one word of an instruction (R54: every instruction is one 16-bit word). -/
def encode (i : Instr) : Word := BitVec.ofNat 16 (encodeNat i)

/-- One row of spec/opcode_table.json: the words `w` with `w &&& mask = value` are the row's. -/
structure Row where
  mnemonic : String
  mask : Word
  value : Word
  deriving DecidableEq, Repr

/-- The rows of groups 0 to 7 of R50. -/
def rowsFlowImm : List Row :=
  [⟨"CLS", 0xFFFF, 0x00E0⟩,
   ⟨"RET", 0xFFFF, 0x00EE⟩,
   ⟨"JP_NNN", 0xF000, 0x1000⟩,
   ⟨"CALL_NNN", 0xF000, 0x2000⟩,
   ⟨"SE_VX__NN", 0xF000, 0x3000⟩,
   ⟨"SNE_VX__NN", 0xF000, 0x4000⟩,
   ⟨"SE_VX__VY", 0xF00F, 0x5000⟩,
   ⟨"LD_VX__NN", 0xF000, 0x6000⟩,
   ⟨"ADD_VX__NN", 0xF000, 0x7000⟩]

/-- The rows of group 8 of R50. -/
def rowsAlu : List Row :=
  [⟨"LD_VX__VY", 0xF00F, 0x8000⟩,
   ⟨"OR_VX__VY", 0xF00F, 0x8001⟩,
   ⟨"AND_VX__VY", 0xF00F, 0x8002⟩,
   ⟨"XOR_VX__VY", 0xF00F, 0x8003⟩,
   ⟨"ADD_VX__VY", 0xF00F, 0x8004⟩,
   ⟨"SUB_VX__VY", 0xF00F, 0x8005⟩,
   ⟨"SHR_VX", 0xF00F, 0x8006⟩,
   ⟨"SUBN_VX__VY", 0xF00F, 0x8007⟩,
   ⟨"SHL_VX", 0xF00F, 0x800E⟩]

/-- The rows of groups 9 to F, down to FX07, of R50. -/
def rowsMisc : List Row :=
  [⟨"SNE_VX__VY", 0xF00F, 0x9000⟩,
   ⟨"LD_I__NNN", 0xF000, 0xA000⟩,
   ⟨"JP_V0__NNN", 0xF000, 0xB000⟩,
   ⟨"RND_VX__NN", 0xF000, 0xC000⟩,
   ⟨"DRW_VX__VY__N", 0xF000, 0xD000⟩,
   ⟨"SKP_VX", 0xF0FF, 0xE09E⟩,
   ⟨"SKNP_VX", 0xF0FF, 0xE0A1⟩,
   ⟨"LD_VX__DT", 0xF0FF, 0xF007⟩]

/-- The remaining rows of group F of R50. -/
def rowsF : List Row :=
  [⟨"LD_VX__K", 0xF0FF, 0xF00A⟩,
   ⟨"LD_DT__VX", 0xF0FF, 0xF015⟩,
   ⟨"LD_ST__VX", 0xF0FF, 0xF018⟩,
   ⟨"ADD_I__VX", 0xF0FF, 0xF01E⟩,
   ⟨"LD_F__VX", 0xF0FF, 0xF029⟩,
   ⟨"LD_B__VX", 0xF0FF, 0xF033⟩,
   ⟨"LD__I___VX", 0xF0FF, 0xF055⟩,
   ⟨"LD_VX___I", 0xF0FF, 0xF065⟩]

/-- The 34 rows of R50, letter for letter from spec/opcode_table.json. -/
def opcodeRows : List Row := rowsFlowImm ++ rowsAlu ++ rowsMisc ++ rowsF

/-- Whether a row's fixed bits match a word (R50, R51). -/
def Row.selects (r : Row) (w : Word) : Bool := w &&& r.mask == r.value

end Sys2Proof
end

