-- ==== Sys2Proof/Machine/State.lean ====
section
/-! DEFINITION. The state of the core: everything 10_state.md gives the machine (R10 to R26), as plain data; the errors of
60_exceptions.md R152; the reset state of 70_reset_and_hazards.md R180. -/

namespace Sys2Proof.Machine

/-- The errors a step can end with (R152, codes 3 to 8), with the information each records. An error is not a stop of this
model: the step that raises it has a next state, with the error in the latch (R151, R153). -/
inductive StepError where
  /-- Code 3: 2NNN with the stack full (R68). -/
  | stackOverflow (ipc opcode : Word)
  /-- Code 4: 00EE with the stack empty (R66). -/
  | stackUnderflow (ipc opcode : Word)
  /-- Code 5: a fetch with pc above 0xFFE (R49). -/
  | fetchOutOfBounds (pc : Word)
  /-- Code 6: an unmatched word under STRICT_DECODE (R52). -/
  | unknownOpcode (ipc opcode : Word)
  /-- Code 7: a data address above 0xFFF in DXYN, FX33, FX55 or FX65 (R35); `addr` is the first offending one. -/
  | dataOutOfBounds (ipc opcode : Word) (addr : Nat)
  /-- Code 8: a key index above 15 in EX9E or EXA1 (R120, R121). -/
  | keyOutOfBounds (ipc opcode : Word) (index : Byte)
  deriving DecidableEq, Repr

/-- The code of a step error (R152; D1: a label, nothing depends on it). -/
def StepError.code : StepError → Nat
  | .stackOverflow _ _ => 3
  | .stackUnderflow _ _ => 4
  | .fetchOutOfBounds _ => 5
  | .unknownOpcode _ _ => 6
  | .dataOutOfBounds _ _ _ => 7
  | .keyOutOfBounds _ _ _ => 8

/-- The errors a load can return (R152, codes 1 and 2). They never reach the latch (R153). -/
inductive LoadError where
  /-- Code 1: the source cannot be read. -/
  | unreadable
  /-- Code 2: the image is longer than 3584 bytes; its length. -/
  | capacity (len : Nat)
  deriving DecidableEq, Repr

/-- The code of a load error (R152; D1). -/
def LoadError.code : LoadError → Nat
  | .unreadable => 1
  | .capacity _ => 2

/-- What the core hands back to the host: the outcome of a step (R150), the tone of a tick (R160), the result of a load
(R182). -/
inductive Reply where
  /-- Nothing has been handed back yet. -/
  | nothing
  /-- `Ok`: the instruction, or the load, completed. -/
  | ok
  /-- `AwaitingKey`: FX0A found no key down (R123). -/
  | awaitingKey
  /-- `Error(e)`: the step raised `e`, or the latch already held it. -/
  | error (e : StepError)
  /-- The load failed and changed nothing (R182). -/
  | loadError (e : LoadError)
  /-- The tick's "tone active" signal (R160). -/
  | tone (active : Bool)
  deriving DecidableEq, Repr

/-- Cells of a store as (index, byte) pairs, the indexes strictly rising and no cell listed that holds what an unlisted
index reads as (`cellsWf` in Machine/Ops.lean says so). -/
abbrev Memory := List Host.Cell

/-- The frame buffer, in the same form: cell `x + 64 * y` is the pixel of column x and row y (R19); an unlisted cell is 0.
DESIGN CHOICE of form, log 24. -/
abbrev FrameBuffer := List Host.Cell

/-- The state of the core: one field per entry of the access map R26, the parameters of R7, and two fields of the model's
own (`draws`, `reply`). -/
structure State where
  /-- V0 to VF (R10, R11). -/
  v : Vector Byte 16
  /-- The index register I (R12). -/
  i : Word
  /-- The program counter (R13). -/
  pc : Word
  /-- The number of live stack entries, 0 to 16 (R15). -/
  sp : Fin 17
  /-- The call stack (R14). -/
  stack : Vector Word 16
  /-- The delay timer (R16). -/
  dt : Byte
  /-- The sound timer (R17). -/
  st : Byte
  /-- The 4096 bytes of memory (R18, R30). -/
  mem : Memory
  /-- The 2048 cells of the frame buffer (R19). -/
  fb : FrameBuffer
  /-- The 16 key cells, true for pressed (R20). -/
  keys : Vector Bool 16
  /-- The redraw flag (R22). -/
  redraw : Bool
  /-- The fault latch (R23). -/
  fault : Option StepError
  /-- Whether the program has been loaded (R24). -/
  loaded : Bool
  /-- The parameters STRICT_DECODE and GLYPH_TABLE (R7); no transition changes them. -/
  cfg : Config
  /-- The MODEL's own: how many draws of RAND there have been (R102, log 4). -/
  draws : Nat
  /-- The MODEL's own: what the core last handed back to the host (R150, R160, R182; log 6). -/
  reply : Reply
  deriving DecidableEq, Repr

/-- The faults of the model: none. The spec describes every error of this core whole (R151 to R153), so a step that raises
one has a next state; nothing stops the model by a fault (log 8). -/
inductive Fault
  deriving DecidableEq, Repr

/-- What the model refuses. Each but `notModelled` is a call that the spec says the host may not make; all are safe, since
no claim about a next state can be made of a refused call. -/
inductive Refusal where
  /-- An instruction without a meaning yet, raised by `exec`'s arms only. No arm raises it now. Safe. -/
  | notModelled (mnemonic : String)
  /-- A step before the load, raised by `step`: "not a move the host may make" (R183, D22). Safe. -/
  | stepBeforeLoad
  /-- A second load, raised by `loadProgram`: "no move; the host may not load twice" (R182, D22). Safe. -/
  | secondLoad
  /-- A key index above 15, raised by `setKey`: "refused and changes nothing" (R170, D4). Safe. -/
  | keyIndexAbove15
  deriving DecidableEq, Repr

/-- The state after construction with parameters `cfg` (R180): memory lists nothing, so it reads as zeros and the glyph
table. -/
def State.construct (cfg : Config) : State where
  v := Vector.replicate 16 0
  i := 0
  pc := 0x200
  sp := 0
  stack := Vector.replicate 16 0
  dt := 0
  st := 0
  mem := []
  fb := []
  keys := Vector.replicate 16 false
  redraw := false
  fault := none
  loaded := false
  cfg := cfg
  draws := 0
  reply := .nothing

/-- The state after construction with the default parameters of R7: the reset state of the model. -/
def State.reset : State := State.construct Config.default

end Sys2Proof.Machine
end

