-- ==== Sys2Proof/Machine/Ops.lean ====
section
/-! DEFINITION. The named operations over the state: the two byte stores and their canonical form, the accessors through
which every read and write of the state goes, raising an error (the one shared operation of 60_exceptions.md R151), the
wait for a key, the stack, and the fetch. -/

namespace Sys2Proof.Machine

/-! ### A store of bytes by index, in canonical form -/

/-- The byte at index `a`: the listed one, else what an unlisted index reads as. -/
def cellsRead (unlisted : Nat → Byte) : List Host.Cell → Nat → Byte
  | [], a => unlisted a
  | (k, b) :: rest, a => if k = a then b else cellsRead unlisted rest a

/-- A cell put before a list, unless it holds what an unlisted index reads as. -/
def cellsCons (unlisted : Nat → Byte) (a : Nat) (b : Byte) (rest : List Host.Cell) : List Host.Cell :=
  if b = unlisted a then rest else (a, b) :: rest

/-- The store with byte `b` at index `a`, keeping the canonical form. -/
def cellsWrite (unlisted : Nat → Byte) : List Host.Cell → Nat → Byte → List Host.Cell
  | [], a, b => cellsCons unlisted a b []
  | (k, c) :: rest, a, b =>
    if a < k then cellsCons unlisted a b ((k, c) :: rest)
    else if a = k then cellsCons unlisted a b rest
    else (k, c) :: cellsWrite unlisted rest a b

/-- The canonical form: indexes strictly rising and below `bound`, no cell equal to what an unlisted index reads as. -/
abbrev cellsWf (unlisted : Nat → Byte) (bound : Nat) (m : List Host.Cell) : Prop :=
  m.Pairwise (fun p q => p.1 < q.1) ∧ ∀ c ∈ m, c.1 < bound ∧ c.2 ≠ unlisted c.1

/-- What an address that nothing has written reads as: its construction value (R180), the glyph table at 0x050 to 0x09F
(R21, R31) and 0 elsewhere. -/
def unlistedByte (cfg : Config) (a : Nat) : Byte :=
  if 0x050 ≤ a ∧ a ≤ 0x09F then cfg.glyphTable.getD (a - 0x050) 0 else 0

/-- The number of memory cells (R6). -/
abbrev memBytes : Nat := 4096

/-- The number of frame-buffer cells (R6). -/
abbrev fbCells : Nat := 2048

/-- The canonical form of memory (R18: addresses below 4096). -/
abbrev Memory.wf (cfg : Config) (m : Memory) : Prop := cellsWf (unlistedByte cfg) memBytes m

/-- The canonical form of the frame buffer (R19: cells below 2048; an unlisted cell is 0). -/
abbrev FrameBuffer.wf (m : FrameBuffer) : Prop := cellsWf (fun _ => 0) fbCells m

/-! ### Registers -/

/-- `V[x]` (R9, R10). -/
def State.reg (s : State) (x : Reg) : Byte := s.v[x]

/-- `V[x] <- b` (R9, R10). -/
def State.setReg (s : State) (x : Reg) (b : Byte) : State := { s with v := s.v.set x b }

/-- The flag first, the result last (R79): with `x = VF` the result stays. -/
def State.setFlagged (s : State) (x : Reg) (flag result : Byte) : State := (s.setReg VF flag).setReg x result

/-- `I <- w` (R9, R12). -/
def State.setIndex (s : State) (w : Word) : State := { s with i := w }

/-- `pc <- target` (R9, R13). -/
def State.jump (s : State) (target : Word) : State := { s with pc := target }

/-- `DT <- b` (R9, R16). -/
def State.setDelay (s : State) (b : Byte) : State := { s with dt := b }

/-- `ST <- b` (R9, R17). -/
def State.setSound (s : State) (b : Byte) : State := { s with st := b }

/-- `redraw <- b` (R9, R22). -/
def State.setRedraw (s : State) (b : Bool) : State := { s with redraw := b }

/-- One more draw of RAND has been made (R102, log 4). -/
def State.countDraw (s : State) : State := { s with draws := s.draws + 1 }

/-- A skip: `pc <- pc + 2` when the condition holds (40_flow.md, the skip-if family). -/
def State.skipIf (s : State) (c : Bool) : State := if c then s.jump (s.pc + 2) else s

/-- The address of the instruction itself, `ipc = pc - 2` (R9). -/
def State.ipc (s : State) : Word := s.pc - 2

/-! ### Memory and frame buffer -/

/-- The byte of memory at `a`, for an address that has passed the bound check (R33). -/
def State.readByte (s : State) (a : Nat) : Byte := cellsRead (unlistedByte s.cfg) s.mem a

/-- `mem[a] <- b`, for an address that has passed the bound check (R34). -/
def State.writeByte (s : State) (a : Nat) (b : Byte) : State :=
  { s with mem := cellsWrite (unlistedByte s.cfg) s.mem a b }

/-- The bytes of a list, stored at `a` and the addresses after it (R37). -/
def State.writeBytes (s : State) (a : Nat) : List Byte → State
  | [] => s
  | b :: rest => (s.writeByte a b).writeBytes (a + 1) rest

/-- `fb[k]` (R9, R19). -/
def State.pixel (s : State) (k : Nat) : Byte := cellsRead (fun _ => 0) s.fb k

/-- `fb[k] <- b` (R9, R19). -/
def State.setPixel (s : State) (k : Nat) (b : Byte) : State := { s with fb := cellsWrite (fun _ => 0) s.fb k b }

/-- Every frame-buffer cell 0 (R65). -/
def State.clearPixels (s : State) : State := { s with fb := [] }

/-- One set sprite bit drawn on cell `k` (R110): the collision, then the XOR with 1. -/
def State.flipPixel (s : State) (k : Nat) : State :=
  (if s.pixel k = 1 then s.setReg VF 1 else s).setPixel k (1 - s.pixel k)

/-! ### The call stack -/

/-- The entry a push writes, none when the stack is full (R15, R68). -/
def State.freeEntry (s : State) : Option (Fin 16) := if h : s.sp.val < 16 then some ⟨s.sp.val, h⟩ else none

/-- The entry a pop reads, none when the stack is empty (R15, R66). -/
def State.topEntry (s : State) : Option (Fin 16) :=
  if h : s.sp.val = 0 then none else some ⟨s.sp.val - 1, by omega⟩

/-- `stack[k] <- pc`, then `sp <- k + 1` (R15, R68). -/
def State.pushPc (s : State) (k : Fin 16) : State := { s with stack := s.stack.set k s.pc, sp := k.succ }

/-- `sp <- k`, then `pc <- stack[k]`; the entry keeps its value (R14, R15, R66). -/
def State.popPc (s : State) (k : Fin 16) : State := { s with sp := k.castSucc, pc := s.stack[k] }

/-! ### Taking an error, waiting, and the step's outcome -/

/-- THE shared operation of taking an error (R151, R23): nothing changes but the latch, which holds the error with its
information; pc is the address of the step's instruction again; the outcome is `Error(e)` (R150). There is no vector, no
handler and no saved state (R156), and no return beside it: "no instruction restores state after an error" (R157). -/
def State.raiseAt (s : State) (at_ : Word) (e : StepError) : State :=
  { s with pc := at_, fault := some e, reply := .error e }

/-- `raise e` inside an instruction, whose pc the fetch has advanced already (R9, R48, R151). -/
def State.raise (s : State) (e : StepError) : State := s.raiseAt s.ipc e

/-- A step under a latched error: the same error again, nothing changed (R153). -/
def State.latchedReturn (s : State) (e : StepError) : State := { s with reply := .error e }

/-- `pc <- pc - 2; await_key` (R123): the step's outcome is `AwaitingKey` (R150). -/
def State.awaitKey (s : State) : State := { s with pc := s.ipc, reply := .awaitingKey }

/-! ### The fetch -/

/-- Whether the host may step (R170, R183): after the load. -/
def State.mayStep (s : State) : Bool := s.loaded

/-- The fetch bound (R49): every pc up to 0xFFE is fetched, odd or even. -/
def State.fetchInBounds (s : State) : Bool := decide (s.pc.toNat ≤ 0xFFE)

/-- The opcode at pc, big-endian (R45, R48). -/
def State.fetchWord (s : State) : Word := wordOfBytes (s.readByte s.pc.toNat) (s.readByte (s.pc.toNat + 1))

/-- The state an instruction executes in: pc advanced by 2 (R48), the outcome `Ok` unless the instruction says otherwise. -/
def State.fetched (s : State) : State := { s with pc := s.pc + 2, reply := .ok }

/-- The effect of a word no row matches (R52), in the state after the fetch. -/
def State.unmatched (s : State) (w : Word) : State :=
  if s.cfg.strictDecode then s.raise (.unknownOpcode s.ipc w) else s

/-- The two bytes of a word stored at pc, the load made and the latch clear: what one step needs to run it (log 30). Where
pc is above 0xFFE no word can be fetched, so nothing is stored. -/
def State.placeWord (s : State) (w : Word) : State :=
  let stored := if s.fetchInBounds then s.writeBytes s.pc.toNat [highByte w, lowByte w] else s
  { stored with loaded := true, fault := none }

end Sys2Proof.Machine
end

