-- ==== Sys2Proof/Machine/Operands.lean ====
section
/-! DEFINITION. The operand forms: the data addresses of I + k with their bound check (20_memory.md R35), blocks of
registers, the decimal digits, key indexes and the key that FX0A stores, glyph addresses, and the cells of a sprite. -/

namespace Sys2Proof.Machine

/-! ### Data addresses -/

/-- The first of the `len` addresses from `base` that is above 0xFFF, none when all are in the address space (R33 to
R35). Addresses are naturals and never reduced. -/
def firstBadAddress (base len : Nat) : Option Nat := (List.range' base len).find? (fun a => decide (0xFFF < a))

/-- The bound check of an instruction that touches I .. I + len - 1, made before anything is written (R35). -/
def State.dataFault (s : State) (len : Nat) : Option Nat := firstBadAddress s.i.toNat len

/-! ### Blocks and digits -/

/-- V0 to VX inclusive (R138). -/
def State.regBlock (s : State) (x : Reg) : List Byte := s.v.toList.take (x.val + 1)

/-- V0 to VX loaded from memory at I to I + X, the other registers as they are (R139). -/
def State.loadBlock (s : State) (x : Reg) : State :=
  { s with v := Vector.ofFn (fun k : Fin 16 => if k ≤ x then s.readByte (s.i.toNat + k.val) else s.reg k) }

/-- Hundreds, tens and units of a byte (R137). -/
def bcdDigits (b : Byte) : List Byte :=
  [BitVec.ofNat 8 (b.toNat / 100), BitVec.ofNat 8 (b.toNat / 10 % 10), BitVec.ofNat 8 (b.toNat % 10)]

/-! ### Addresses an instruction computes -/

/-- An immediate NNN as a 16-bit value (R46: zext). -/
def addrOf (nnn : Addr12) : Word := nnn.zeroExtend 16

/-- The address of the glyph of a byte: 0x050 + 5 * b, not reduced (R136). -/
def glyphAddress (b : Byte) : Word := BitVec.ofNat 16 (0x050 + 5 * b.toNat)

/-! ### Keys -/

/-- The key a register names, none above 15 (R120, R121): the index is not reduced. -/
def keyIndex (b : Byte) : Option (Fin 16) := if h : b.toNat < 16 then some ⟨b.toNat, h⟩ else none

/-- The pressed keys, lowest index first. -/
def pressedKeys (keys : Vector Bool 16) : List (Fin 16) := (List.finRange 16).filter (fun k => keys[k])

/-- KEY_SELECT (R7, R123): no key when none is down, the key when one is, and when several are down a free choice among
them (`Config.keyPick` has no body). -/
def selectKey (keys : Vector Bool 16) : Option (Fin 16) :=
  match pressedKeys keys with
  | [] => none
  | [k] => some k
  | k :: k' :: rest => some ((k :: k' :: rest).getD (Config.keyPick keys % (rest.length + 2)) k)

/-! ### Sprites -/

/-- The frame-buffer cell of a pixel, with the double wrap of R110. -/
def cellIndex (x y : Nat) : Nat := (x % 64 + (y % 32) * 64) % 2048

/-- The cells of one sprite row's set bits, left to right: bit 7 is column `x0` (R110, R111). -/
def rowCells (row : Byte) (x0 y : Nat) : List Nat :=
  (List.range 8).filterMap (fun c => if row.getLsbD (7 - c) then some (cellIndex (x0 + c) y) else none)

/-- The cells of the set bits of the `n`-row sprite at I, drawn at column `x0` and row `y0`, in drawing order (R110). -/
def State.spriteCells (s : State) (x0 y0 n : Nat) : List Nat :=
  (List.range n).flatMap (fun r => rowCells (s.readByte (s.i.toNat + r)) x0 (y0 + r))

/-- A sprite drawn (R110): VF cleared, each set bit drawn in order, the redraw flag set. The coordinates are numbers read
before VF is cleared (D13). -/
def State.drawSprite (s : State) (x0 y0 n : Nat) : State :=
  ((s.spriteCells x0 y0 n).foldl State.flipPixel (s.setReg VF 0)).setRedraw true

end Sys2Proof.Machine
end

