-- ==== Sys2Proof/Machine/Alu.lean ====
section
/-! DEFINITION. 41_alu.md: load and add immediate, and the register ALU. Operands are read first, VF is written next, V[X]
last (R79; `State.setFlagged`). -/

namespace Sys2Proof.Machine

/-- 6XNN (R80). -/
def execLdImm (x : Reg) (nn : Byte) (s : State) : Host.Outcome State Fault Refusal := .next (s.setReg x nn)

/-- 7XNN (R81): modulo 256, no flag. -/
def execAddImm (x : Reg) (nn : Byte) (s : State) : Host.Outcome State Fault Refusal :=
  .next (s.setReg x (s.reg x + nn))

/-- 8XY0 (R82). -/
def execLdReg (x y : Reg) (s : State) : Host.Outcome State Fault Refusal := .next (s.setReg x (s.reg y))

/-- 8XY1 (R83). -/
def execOrReg (x y : Reg) (s : State) : Host.Outcome State Fault Refusal :=
  .next (s.setReg x (s.reg x ||| s.reg y))

/-- 8XY2 (R84). -/
def execAndReg (x y : Reg) (s : State) : Host.Outcome State Fault Refusal :=
  .next (s.setReg x (s.reg x &&& s.reg y))

/-- 8XY3 (R85). -/
def execXorReg (x y : Reg) (s : State) : Host.Outcome State Fault Refusal :=
  .next (s.setReg x (s.reg x ^^^ s.reg y))

/-- 8XY4 (R86). -/
def execAddReg (x y : Reg) (s : State) : Host.Outcome State Fault Refusal :=
  .next (s.setFlagged x (carryOut (s.reg x) (s.reg y)) (s.reg x + s.reg y))

/-- 8XY5 (R87). -/
def execSubReg (x y : Reg) (s : State) : Host.Outcome State Fault Refusal :=
  .next (s.setFlagged x (noBorrow (s.reg x) (s.reg y)) (s.reg x - s.reg y))

/-- 8XY6 (R88): the second operand, field Y, is not used. -/
def execShr (x _y : Reg) (s : State) : Host.Outcome State Fault Refusal :=
  .next (s.setFlagged x (bitOutRight (s.reg x)) (s.reg x >>> 1))

/-- 8XY7 (R89). -/
def execSubnReg (x y : Reg) (s : State) : Host.Outcome State Fault Refusal :=
  .next (s.setFlagged x (noBorrow (s.reg y) (s.reg x)) (s.reg y - s.reg x))

/-- 8XYE (R90): the second operand, field Y, is not used. -/
def execShl (x _y : Reg) (s : State) : Host.Outcome State Fault Refusal :=
  .next (s.setFlagged x (bitOutLeft (s.reg x)) (s.reg x <<< 1))

end Sys2Proof.Machine
end

