-- ==== Sys2Proof/Machine/Draw.lean ====
section
/-! DEFINITION. 43_draw.md: the sprite rasterizer. -/

namespace Sys2Proof.Machine

/-- DXYN (R110): every address is checked before anything is written; the coordinates are read before VF is cleared. -/
def execDrw (x y : Reg) (n : Fin 16) (s : State) : Host.Outcome State Fault Refusal :=
  match s.dataFault n.val with
  | some a => .next (s.raise (.dataOutOfBounds s.ipc (encode (.drw x y n)) a))
  | none => .next (s.drawSprite (s.reg x).toNat (s.reg y).toNat n.val)

end Sys2Proof.Machine
end

