-- ==== Sys2Proof/Machine/Flow.lean ====
section
/-! DEFINITION. 40_flow.md: clear screen, return, jump, call and the skips. In every meaning `s.pc` is already the address
of the instruction plus 2 (R48). -/

namespace Sys2Proof.Machine

/-- 00E0 (R65). -/
def execCls (s : State) : Host.Outcome State Fault Refusal := .next (s.clearPixels.setRedraw true)

/-- 00EE (R66). -/
def execRet (s : State) : Host.Outcome State Fault Refusal :=
  match s.topEntry with
  | none => .next (s.raise (.stackUnderflow s.ipc (encode .ret)))
  | some k => .next (s.popPc k)

/-- 1NNN (R67). -/
def execJp (nnn : Addr12) (s : State) : Host.Outcome State Fault Refusal := .next (s.jump (addrOf nnn))

/-- 2NNN (R68): the return address pushed is the advanced pc. -/
def execCall (nnn : Addr12) (s : State) : Host.Outcome State Fault Refusal :=
  match s.freeEntry with
  | none => .next (s.raise (.stackOverflow s.ipc (encode (.call nnn))))
  | some k => .next ((s.pushPc k).jump (addrOf nnn))

/-- 3XNN (R69). -/
def execSeImm (x : Reg) (nn : Byte) (s : State) : Host.Outcome State Fault Refusal :=
  .next (s.skipIf (s.reg x == nn))

/-- 4XNN (R70). -/
def execSneImm (x : Reg) (nn : Byte) (s : State) : Host.Outcome State Fault Refusal :=
  .next (s.skipIf (s.reg x != nn))

/-- 5XY0 (R71). -/
def execSeReg (x y : Reg) (s : State) : Host.Outcome State Fault Refusal := .next (s.skipIf (s.reg x == s.reg y))

/-- 9XY0 (R72). -/
def execSneReg (x y : Reg) (s : State) : Host.Outcome State Fault Refusal := .next (s.skipIf (s.reg x != s.reg y))

end Sys2Proof.Machine
end

