-- ==== Sys2Proof/Machine/IndexJumpRandom.lean ====
section
/-! DEFINITION. 42_index_jump_random.md: set index, jump with offset, random. -/

namespace Sys2Proof.Machine

/-- ANNN (R100). -/
def execLdI (nnn : Addr12) (s : State) : Host.Outcome State Fault Refusal := .next (s.setIndex (addrOf nnn))

/-- BNNN (R101): NNN + V[0], not reduced to 12 bits. -/
def execJpV0 (nnn : Addr12) (s : State) : Host.Outcome State Fault Refusal :=
  .next (s.jump (addrOf nnn + (s.reg 0).zeroExtend 16))

/-- CXNN (R102): a fresh free byte, masked by NN. -/
def execRnd (x : Reg) (nn : Byte) (s : State) : Host.Outcome State Fault Refusal :=
  .next ((s.setReg x (Config.randByte s.draws &&& nn)).countDraw)

end Sys2Proof.Machine
end

