-- ==== Sys2Proof/Machine/IndexMemory.lean ====
section
/-! DEFINITION. 45_index_memory.md: add to index, character sprite, BCD, block store and block load. Every address is
checked before any write (R35). -/

namespace Sys2Proof.Machine

/-- FX1E (R135): modulo 65536, no 12-bit mask, no flag. -/
def execAddI (x : Reg) (s : State) : Host.Outcome State Fault Refusal :=
  .next (s.setIndex (s.i + (s.reg x).zeroExtend 16))

/-- FX29 (R136). -/
def execLdF (x : Reg) (s : State) : Host.Outcome State Fault Refusal := .next (s.setIndex (glyphAddress (s.reg x)))

/-- FX33 (R137). -/
def execLdB (x : Reg) (s : State) : Host.Outcome State Fault Refusal :=
  match s.dataFault 3 with
  | some a => .next (s.raise (.dataOutOfBounds s.ipc (encode (.ldB x)) a))
  | none => .next (s.writeBytes s.i.toNat (bcdDigits (s.reg x)))

/-- FX55 (R138): I is not changed. -/
def execStoreRegs (x : Reg) (s : State) : Host.Outcome State Fault Refusal :=
  match s.dataFault (x.val + 1) with
  | some a => .next (s.raise (.dataOutOfBounds s.ipc (encode (.storeRegs x)) a))
  | none => .next (s.writeBytes s.i.toNat (s.regBlock x))

/-- FX65 (R139): I is not changed. -/
def execLoadRegs (x : Reg) (s : State) : Host.Outcome State Fault Refusal :=
  match s.dataFault (x.val + 1) with
  | some a => .next (s.raise (.dataOutOfBounds s.ipc (encode (.loadRegs x)) a))
  | none => .next (s.loadBlock x)

end Sys2Proof.Machine
end

