-- ==== Sys2Proof/Machine/KeysTimers.lean ====
section
/-! DEFINITION. 44_keys_timers.md: key skips, timer accessors, wait for key. -/

namespace Sys2Proof.Machine

/-- EX9E (R120). -/
def execSkp (x : Reg) (s : State) : Host.Outcome State Fault Refusal :=
  match keyIndex (s.reg x) with
  | none => .next (s.raise (.keyOutOfBounds s.ipc (encode (.skp x)) (s.reg x)))
  | some k => .next (s.skipIf s.keys[k])

/-- EXA1 (R121). -/
def execSknp (x : Reg) (s : State) : Host.Outcome State Fault Refusal :=
  match keyIndex (s.reg x) with
  | none => .next (s.raise (.keyOutOfBounds s.ipc (encode (.sknp x)) (s.reg x)))
  | some k => .next (s.skipIf (!s.keys[k]))

/-- FX07 (R122). -/
def execLdVxDt (x : Reg) (s : State) : Host.Outcome State Fault Refusal := .next (s.setReg x s.dt)

/-- FX0A (R123): with no key down the pc goes back and the outcome is AwaitingKey. -/
def execLdVxK (x : Reg) (s : State) : Host.Outcome State Fault Refusal :=
  match selectKey s.keys with
  | none => .next s.awaitKey
  | some k => .next (s.setReg x (BitVec.ofNat 8 k.val))

/-- FX15 (R124). -/
def execLdDtVx (x : Reg) (s : State) : Host.Outcome State Fault Refusal := .next (s.setDelay (s.reg x))

/-- FX18 (R125). -/
def execLdStVx (x : Reg) (s : State) : Host.Outcome State Fault Refusal := .next (s.setSound (s.reg x))

end Sys2Proof.Machine
end

