-- ==== Sys2Proof/Machine/Step.lean ====
section
/-! DEFINITION. One step (30_encoding.md R48): the latch, the fetch bound, the fetch, the decode, the instruction. -/

namespace Sys2Proof.Machine

/-- `step()` of R170, as R48 writes it. Before the load it is not a move (R183), so it is refused. -/
def step (s : State) : Host.Outcome State Fault Refusal :=
  if s.mayStep then
    match s.fault with
    | some e => .next (s.latchedReturn e)
    | none =>
      if s.fetchInBounds then
        match decode s.fetchWord with
        | .ok i => exec i s.fetched
        | .error _ => .next (s.fetched.unmatched s.fetchWord)
      else .next (s.raiseAt s.pc (.fetchOutOfBounds s.pc))
  else .refused .stepBeforeLoad

/-- The state with an instruction's bits (numbered as spec/opcode_table.json numbers them, those above `nbits` 0) where
`step` fetches next, the load made and the latch clear, so that `step` runs it (log 30). -/
def State.withFetchWord (s : State) (nbits w : Nat) : State := s.placeWord (BitVec.ofNat 16 (w % 2 ^ nbits))

end Sys2Proof.Machine
end

