-- ==== Sys2Proof/Machine/HostActions.lean ====
section
/-! DEFINITION. The host's calls (60_exceptions.md R170): load, step, tick, set_key, clear_redraw and read. Each is one
indivisible transition; the host chooses their order (R40, R161). -/

namespace Sys2Proof.Machine

/-- load(bytes) (R182). `none` is a source that cannot be read. A failed load changes nothing. -/
def loadProgram (source : Option (List Byte)) (s : State) : Host.Outcome State Fault Refusal :=
  if s.loaded then .refused .secondLoad
  else
    match source with
    | none => .next { s with reply := .loadError .unreadable }
    | some bytes =>
      if imageWellFormed bytes then .next { s.writeBytes 0x200 bytes with loaded := true, reply := .ok }
      else .next { s with reply := .loadError (.capacity bytes.length) }

/-- One count of a timer: down by 1 while above 0 (R160). -/
def countDown (b : Byte) : Byte := if b = 0 then 0 else b - 1

/-- tick() (R160): both timers, and the tone, active exactly when ST was above 0 before the tick. -/
def tickTimers (s : State) : State :=
  { s with dt := countDown s.dt, st := countDown s.st, reply := .tone (s.st != 0) }

/-- set_key(k, b) (R170): an index above 15 is refused and changes nothing. -/
def setKey (k : Nat) (b : Bool) (s : State) : Host.Outcome State Fault Refusal :=
  if h : k < 16 then .next { s with keys := s.keys.set k b h } else .refused .keyIndexAbove15

/-- clear_redraw() (R170). -/
def clearRedraw (s : State) : State := s.setRedraw false

/-- What the host and a test may read (R26, the "read" entries of its host access; R170): `mem` and `fb` cell by cell. -/
structure Snapshot where
  v : Vector Byte 16
  i : Word
  pc : Word
  sp : Fin 17
  stack : Vector Word 16
  dt : Byte
  st : Byte
  mem : List Byte
  fb : List Byte
  keys : Vector Bool 16
  redraw : Bool
  fault : Option StepError
  deriving DecidableEq, Repr

/-- read state (R170): the snapshot of R26. -/
def State.snapshot (s : State) : Snapshot where
  v := s.v
  i := s.i
  pc := s.pc
  sp := s.sp
  stack := s.stack
  dt := s.dt
  st := s.st
  mem := (List.range memBytes).map s.readByte
  fb := (List.range fbCells).map s.pixel
  keys := s.keys
  redraw := s.redraw
  fault := s.fault

/-- The calls of R170. -/
inductive HostAction where
  /-- load(bytes); `none` is a source that cannot be read. -/
  | load (source : Option (List Byte))
  /-- step(). -/
  | step
  /-- tick(). -/
  | tick
  /-- set_key(k, b). -/
  | setKey (k : Nat) (b : Bool)
  /-- clear_redraw(). -/
  | clearRedraw
  /-- read state; the value handed out is `State.snapshot`. -/
  | read
  deriving DecidableEq, Repr

/-- One call of the host (R170). -/
def hostAct (a : HostAction) (s : State) : Host.Outcome State Fault Refusal :=
  match a with
  | .load source => loadProgram source s
  | .step => step s
  | .tick => .next (tickTimers s)
  | .setKey k b => setKey k b s
  | .clearRedraw => .next (clearRedraw s)
  | .read => .next s

/-- A run (R172): the host's calls in the order it makes them; a refused call is no move and ends it. -/
def hostRun : List HostAction → State → Host.Outcome State Fault Refusal
  | [], s => .next s
  | a :: rest, s =>
    match hostAct a s with
    | .next t => hostRun rest t
    | .fault r => .fault r
    | .refused r => .refused r

end Sys2Proof.Machine
end

