-- ==== Sys2Proof/Safety.lean ====
section
/-! DEFINITION. The terms the claims use: the parts of the state (for frames), the invariant of every reachable state, the
information an error records, and the cells a sprite meets. -/

namespace Sys2Proof.Machine

/-- The parts of the state, each as the machine reads it: one register, one byte of memory, one frame-buffer cell, one stack
entry, one key (10_state.md R26), and the model's own fields. -/
inductive Part where
  | reg (r : Reg)
  | index
  | pc
  | sp
  | entry (k : Fin 16)
  | delay
  | sound
  | byte (a : Nat)
  | pixel (k : Nat)
  | key (k : Fin 16)
  | redraw
  | fault
  | loaded
  | cfg
  | draws
  | reply
  deriving DecidableEq, Repr

/-- Part `p` is the same in `t` as in `s`. -/
def Part.Same (p : Part) (s t : State) : Prop :=
  match p with
  | .reg r => t.reg r = s.reg r
  | .index => t.i = s.i
  | .pc => t.pc = s.pc
  | .sp => t.sp = s.sp
  | .entry k => t.stack[k] = s.stack[k]
  | .delay => t.dt = s.dt
  | .sound => t.st = s.st
  | .byte a => t.readByte a = s.readByte a
  | .pixel k => t.pixel k = s.pixel k
  | .key k => t.keys[k] = s.keys[k]
  | .redraw => t.redraw = s.redraw
  | .fault => t.fault = s.fault
  | .loaded => t.loaded = s.loaded
  | .cfg => t.cfg = s.cfg
  | .draws => t.draws = s.draws
  | .reply => t.reply = s.reply

/-- The frame of a transition from `s` to `t`: every part outside `may` is as it was, each register, each byte of memory,
each frame-buffer cell, each stack entry and each key among them. -/
def ChangesOnly (may : Part → Prop) (s t : State) : Prop := ∀ p, ¬ may p → p.Same s t

/-- What every reachable state satisfies: memory and frame buffer in canonical form (R18, R19), every cell of the frame
buffer 0 or 1 (R19), pc at most 0x10FE (R13), every stack entry at most 0x1000 (R66), an error only in a loaded core (R153,
R183), and an outcome `Error(e)` only with `e` in the latch (R151). -/
structure State.Inv (s : State) : Prop where
  mem : Memory.wf s.cfg s.mem
  fb : FrameBuffer.wf s.fb
  bits : ∀ k, s.pixel k = 0 ∨ s.pixel k = 1
  pc : s.pc.toNat ≤ 0x10FE
  stack : ∀ k : Fin 16, s.stack[k].toNat ≤ 0x1000
  latch : s.fault ≠ none → s.loaded = true
  reply : ∀ e, s.reply = .error e → s.fault = some e

/-- The information of R152 is that of the step: the address of its instruction and its opcode. -/
def StepError.Records (e : StepError) (at_ opcode : Word) : Prop :=
  match e with
  | .stackOverflow a w => a = at_ ∧ w = opcode
  | .stackUnderflow a w => a = at_ ∧ w = opcode
  | .fetchOutOfBounds a => a = at_
  | .unknownOpcode a w => a = at_ ∧ w = opcode
  | .dataOutOfBounds a w _ => a = at_ ∧ w = opcode
  | .keyOutOfBounds a w _ => a = at_ ∧ w = opcode

/-- The state an error leaves (R151): the one before the step, with the latch set and the outcome `Error(e)`. Here `s` is
the state the instruction runs in, whose pc the fetch has advanced. -/
def State.erred (s : State) (e : StepError) : State :=
  { s with pc := s.pc - 2, fault := some e, reply := .error e }

/-- The next step raises OutOfBounds.Fetch with the pc (R49). -/
def State.FetchRaises (s : State) : Prop := ∃ t, step s = .next t ∧ t.fault = some (.fetchOutOfBounds s.pc)

/-- A set bit of the `n`-row sprite at I, drawn at the coordinates in V[x] and V[y], meets frame-buffer cell `k` (R110): row
`r`, column `c`, bit `7 - c` of the row's byte (R111). -/
def State.SpriteMeets (s : State) (x y : Reg) (n k : Nat) : Prop :=
  ∃ r c, r < n ∧ c < 8 ∧ (s.readByte (s.i.toNat + r)).getLsbD (7 - c) = true ∧
    k = (((s.reg x).toNat + c) % 64 + ((s.reg y).toNat + r) % 32 * 64) % 2048

/-- The instructions that may write register `r`, as a flag or as a destination (R11, R26). -/
def mayWriteReg (i : Instr) (r : Reg) : Prop :=
  match i with
  | .ldImm x _ | .addImm x _ | .rnd x _ | .ldReg x _ | .orReg x _ | .andReg x _ | .xorReg x _ => r = x
  | .ldVxDt x | .ldVxK x => r = x
  | .addReg x _ | .subReg x _ | .shr x _ | .subnReg x _ | .shl x _ => r = x ∨ r = VF
  | .drw _ _ _ => r = VF
  | .loadRegs x => r ≤ x
  | .cls | .ret | .jp _ | .call _ | .seImm _ _ | .sneImm _ _ | .seReg _ _ | .sneReg _ _ | .ldI _ | .jpV0 _ => False
  | .skp _ | .sknp _ | .ldDtVx _ | .ldStVx _ | .addI _ | .ldF _ | .ldB _ | .storeRegs _ => False

end Sys2Proof.Machine
end

