-- ==== Sys2Proof/Certificates/Slice0/Obligations.lean ====
section
/-! DEFINITION. The statements for the provers. Each docstring names the rule of spec/ it formalises. In a statement about
`exec`, `s` is the state the instruction runs in: the fetch has advanced its pc (R48). A frame is `ChangesOnly may s t`: every
part of the state outside `may` is unchanged, each byte of memory and each register among them. -/

open Sys2Proof Sys2Proof.Machine

/-! ### Encoding, decode and the step -/

/-- R46, R47, R50, R55: no operand bit of an encoding is lost, for every instruction and every operand. -/
def Obligations.DecodeOfEncodeIsTheInstruction : Prop := ∀ i : Instr, decode (encode i) = .ok i

/-- R50, R55: a word that decodes is the encoding of what it decodes to, ignored digits included (SHR and SHL keep Y). -/
def Obligations.EncodeOfDecodeIsTheWord : Prop := ∀ (w : Word) (i : Instr), decode w = .ok i → encode i = w

/-- R50, R51 against spec/opcode_table.json: no two rows select one word; a word that a row selects decodes to that row's
instruction; a word that decodes is selected by its instruction's row. -/
def Obligations.DecodeFollowsTheOpcodeTable : Prop :=
  ∀ w : Word,
    (∀ r ∈ opcodeRows, ∀ r' ∈ opcodeRows, r.selects w = true → r'.selects w = true → r = r') ∧
    (∀ r ∈ opcodeRows, r.selects w = true → ∃ i, decode w = .ok i ∧ i.mnemonic = r.mnemonic) ∧
    (∀ i, decode w = .ok i → ∃ r ∈ opcodeRows, r.selects w = true ∧ r.mnemonic = i.mnemonic)

/-- R53: the unmatched words, listed. Each is rejected by name. -/
def Obligations.UnmatchedWordsAreExactlyThese : Prop :=
  ∀ w : Word, decode w = .error (.unmatched w) ↔
    (w.toNat < 0x1000 ∧ w.toNat ≠ 0x00E0 ∧ w.toNat ≠ 0x00EE) ∨
    ((w.toNat / 0x1000 = 0x5 ∨ w.toNat / 0x1000 = 0x9) ∧ w.toNat % 0x10 ≠ 0) ∨
    (w.toNat / 0x1000 = 0x8 ∧ w.toNat % 0x10 ∈ [0x8, 0x9, 0xA, 0xB, 0xC, 0xD, 0xF]) ∨
    (w.toNat / 0x1000 = 0xE ∧ w.toNat % 0x100 ∉ [0x9E, 0xA1]) ∨
    (w.toNat / 0x1000 = 0xF ∧ w.toNat % 0x100 ∉ [0x07, 0x0A, 0x15, 0x18, 0x1E, 0x29, 0x33, 0x55, 0x65])

/-- R45, R54: an instruction is the two bytes at the front, high byte first, and nothing more. -/
def Obligations.EveryInstructionIsTwoBytes : Prop :=
  ∀ (bytes rest : List Byte) (i : Instr), decodeBytes bytes = .ok (i, rest) →
    ∃ hi lo, bytes = hi :: lo :: rest ∧ (encode i).toNat = hi.toNat * 256 + lo.toNat

/-- R45, R46, R50: words written out from the patterns, at least one of each family, and the three the source shows (0x6A05,
0x2300, 0x00EE). -/
def Obligations.WordsOfEachFamilyDecode : Prop :=
  decode 0x00E0 = .ok .cls ∧ decode 0x00EE = .ok .ret ∧ decode 0x2300 = .ok (.call 0x300) ∧
  decode 0x3A7F = .ok (.seImm 0xA 0x7F) ∧ decode 0x9120 = .ok (.sneReg 1 2) ∧ decode 0x6A05 = .ok (.ldImm 0xA 5) ∧
  decode 0x8FE7 = .ok (.subnReg 0xF 0xE) ∧ decode 0x81EE = .ok (.shl 1 0xE) ∧ decode 0xBF80 = .ok (.jpV0 0xF80) ∧
  decode 0xC30F = .ok (.rnd 3 0x0F) ∧ decode 0xD12F = .ok (.drw 1 2 0xF) ∧ decode 0xEBA1 = .ok (.sknp 0xB) ∧
  decode 0xF70A = .ok (.ldVxK 7) ∧ decode 0xF365 = .ok (.loadRegs 3)

/-- R45, R48: a step of a loaded core with a clear latch and pc in bounds runs the instruction whose word the two bytes at
pc make, big-endian, with pc advanced by 2 and the outcome Ok unless the instruction says otherwise. -/
def Obligations.StepRunsTheDecodedInstruction : Prop :=
  ∀ (s : State) (i : Instr), s.loaded = true → s.fault = none → s.pc.toNat ≤ 0xFFE →
    decode (BitVec.ofNat 16 ((s.readByte s.pc.toNat).toNat * 256 + (s.readByte (s.pc.toNat + 1)).toNat)) = .ok i →
    step s = exec i { s with pc := s.pc + 2, reply := .ok }

/-- R52: an unmatched word only advances pc, or raises UnknownOpcode under STRICT_DECODE. -/
def Obligations.UnmatchedWordDoesNothingOrRaises : Prop :=
  ∀ s : State, s.loaded = true → s.fault = none → s.pc.toNat ≤ 0xFFE →
    decode s.fetchWord = .error (.unmatched s.fetchWord) →
    (s.cfg.strictDecode = false → step s = .next { s with pc := s.pc + 2, reply := .ok }) ∧
    (s.cfg.strictDecode = true → step s = .next
      { s with fault := some (.unknownOpcode s.pc s.fetchWord), reply := .error (.unknownOpcode s.pc s.fetchWord) })

/-- R49 (its odd and low pc: D9, log 16): a pc above 0xFFE raises OutOfBounds.Fetch and changes nothing else; a pc up to
0xFFE never does. -/
def Obligations.FetchBoundIsTheLastWord : Prop :=
  ∀ s : State, s.loaded = true → s.fault = none →
    (0xFFE < s.pc.toNat → step s = .next
      { s with fault := some (.fetchOutOfBounds s.pc), reply := .error (.fetchOutOfBounds s.pc) }) ∧
    (s.pc.toNat ≤ 0xFFE → ∀ t p, step s = .next t → t.fault ≠ some (.fetchOutOfBounds p))

/-- R150: in a loaded core every step completes with exactly one outcome, Ok, AwaitingKey or Error(e), and each has the state
effect the rule gives it (no step of the model stops). -/
def Obligations.EveryStepHasOneOutcome : Prop :=
  ∀ s : State, s.loaded = true → ∃ t, step s = .next t ∧
    ((t.reply = .ok ∧ s.fault = none ∧ t.fault = none) ∨
     (t = { s with reply := .awaitingKey } ∧ s.fault = none ∧ (∀ k : Fin 16, s.keys[k] = false) ∧
        ∃ x, decode s.fetchWord = .ok (.ldVxK x)) ∨
     (∃ e, t = { s with fault := some e, reply := .error e }))

/-! ### Errors -/

/-- R151 (precise errors are the spec's decision D2, log 8): the step that raises an error changes nothing but the latch and
its outcome, and the error records the address and the opcode of that step's instruction. -/
def Obligations.RaisedErrorChangesOnlyTheLatch : Prop :=
  ∀ (s t : State) (e : StepError), step s = .next t → s.fault = none → t.fault = some e →
    t = { s with fault := some e, reply := .error e } ∧ e.Records s.pc s.fetchWord

/-- R23, R153 (the latch is D2, ticks after a fault D27, log 8): the latch is clear at construction, set by steps only, never
cleared by any call of the host, and a step under it returns the same error and changes nothing. -/
def Obligations.LatchHoldsForever : Prop :=
  State.reset.fault = none ∧
  (∀ (a : HostAction) (s t : State) (e : StepError), hostAct a s = .next t → s.fault = some e → t.fault = some e) ∧
  (∀ (a : HostAction) (s t : State), a ≠ .step → hostAct a s = .next t → t.fault = s.fault) ∧
  (∀ (s : State) (e : StepError), s.loaded = true → s.fault = some e → step s = .next { s with reply := .error e })

/-- R152, R154: the errors an instruction can raise: each instruction has at most one check of its own. -/
def Obligations.EachInstructionRaisesOneKindOfError : Prop :=
  ∀ (i : Instr) (s t : State) (e : StepError), exec i s = .next t → s.fault = none → t.fault = some e →
    (e.code = 3 ∧ ∃ nnn, i = .call nnn) ∨ (e.code = 4 ∧ i = .ret) ∨
    (e.code = 7 ∧ ((∃ x y n, i = .drw x y n) ∨ ∃ x, i = .ldB x ∨ i = .storeRegs x ∨ i = .loadRegs x)) ∨
    (e.code = 8 ∧ ∃ x, i = .skp x ∨ i = .sknp x)

/-! ### Clear screen, return, jump, call, skips -/

/-- R65. -/
def Obligations.ClearScreenZeroesEveryCell : Prop :=
  ∀ s : State, ∃ t, exec .cls s = .next t ∧ (∀ k, t.pixel k = 0) ∧ t.redraw = true ∧
    ChangesOnly (fun p => p = .redraw ∨ ∃ k, p = .pixel k) s t

/-- R66 (that the entry keeps its value is D28, log 18; that the error changes nothing is D2, log 8). -/
def Obligations.ReturnPopsTheAddress : Prop :=
  ∀ s : State,
    (∀ k : Fin 16, s.sp.val = k.val + 1 → ∃ t, exec .ret s = .next t ∧ t.sp.val = k.val ∧ t.pc = s.stack[k] ∧
      ChangesOnly (fun p => p = .pc ∨ p = .sp) s t) ∧
    (s.sp.val = 0 → exec .ret s = .next (s.erred (.stackUnderflow (s.pc - 2) 0x00EE)))

/-- R67: pc becomes NNN whatever NNN is, and a target of 0xFFF raises OutOfBounds.Fetch at the next step. -/
def Obligations.JumpSetsThePc : Prop :=
  ∀ (nnn : Addr12) (s : State), ∃ t, exec (.jp nnn) s = .next t ∧ t.pc.toNat = nnn.toNat ∧
    ChangesOnly (fun p => p = .pc) s t ∧
    (nnn = 0xFFF → s.loaded = true → s.fault = none → t.FetchRaises)

/-- R68 (that the error changes nothing is D2, log 8): the advanced pc is pushed, and a full stack raises. -/
def Obligations.CallPushesTheAdvancedPc : Prop :=
  ∀ (nnn : Addr12) (s : State),
    (∀ k : Fin 16, s.sp.val = k.val → ∃ t, exec (.call nnn) s = .next t ∧ t.stack[k] = s.pc ∧ t.sp.val = k.val + 1 ∧
      t.pc.toNat = nnn.toNat ∧ ChangesOnly (fun p => p = .pc ∨ p = .sp ∨ p = .entry k) s t) ∧
    (s.sp.val = 16 → ∃ e, e = .stackOverflow (s.pc - 2) (encode (.call nnn)) ∧ exec (.call nnn) s = .next (s.erred e))

/-- R66, R68 together (the source's worked example W2): a return after a call comes back to the address after the call, with
the stack pointer as it was, wherever the subroutine is left. -/
def Obligations.ReturnUndoesCall : Prop :=
  ∀ (nnn : Addr12) (s : State) (p : Word), s.sp.val < 16 → ∃ t u, exec (.call nnn) s = .next t ∧
    exec .ret { t with pc := p } = .next u ∧ u.pc = s.pc ∧ u.sp = s.sp ∧
    ∀ k : Fin 16, k.val < s.sp.val → u.stack[k] = s.stack[k]

/-- R69, R70, R71, R72: each skip compares, adds 2 to the advanced pc or leaves it, and changes nothing else; a pc above 0xFFE
so left raises OutOfBounds.Fetch at the next step. -/
def Obligations.SkipsCompareRegisters : Prop :=
  ∀ (x y : Reg) (nn : Byte) (s : State),
    (∃ t, exec (.seImm x nn) s = .next t ∧ (s.reg x = nn → t.pc = s.pc + 2) ∧ (s.reg x ≠ nn → t.pc = s.pc) ∧
      ChangesOnly (fun p => p = .pc) s t) ∧
    (∃ t, exec (.sneImm x nn) s = .next t ∧ (s.reg x ≠ nn → t.pc = s.pc + 2) ∧ (s.reg x = nn → t.pc = s.pc) ∧
      ChangesOnly (fun p => p = .pc) s t) ∧
    (∃ t, exec (.seReg x y) s = .next t ∧ (s.reg x = s.reg y → t.pc = s.pc + 2) ∧ (s.reg x ≠ s.reg y → t.pc = s.pc) ∧
      ChangesOnly (fun p => p = .pc) s t) ∧
    (∃ t, exec (.sneReg x y) s = .next t ∧ (s.reg x ≠ s.reg y → t.pc = s.pc + 2) ∧ (s.reg x = s.reg y → t.pc = s.pc) ∧
      ChangesOnly (fun p => p = .pc) s t) ∧
    (∀ (i : Instr) (t : State), i ∈ [Instr.seImm x nn, .sneImm x nn, .seReg x y, .sneReg x y] → exec i s = .next t →
      s.loaded = true → s.fault = none → 0xFFE < t.pc.toNat → t.FetchRaises)

/-! ### Load and add immediate, register ALU -/

/-- R80, R81: the immediate, and the sum modulo 256 with no flag. -/
def Obligations.LoadAndAddImmediate : Prop :=
  ∀ (x : Reg) (nn : Byte) (s : State),
    (∃ t, exec (.ldImm x nn) s = .next t ∧ t.reg x = nn ∧ ChangesOnly (fun p => p = .reg x) s t) ∧
    (∃ t, exec (.addImm x nn) s = .next t ∧ (t.reg x).toNat = ((s.reg x).toNat + nn.toNat) % 256 ∧
      ChangesOnly (fun p => p = .reg x) s t)

/-- R82: the copy. -/
def Obligations.CopyRegister : Prop :=
  ∀ (x y : Reg) (s : State), ∃ t, exec (.ldReg x y) s = .next t ∧ t.reg x = s.reg y ∧
    ChangesOnly (fun p => p = .reg x) s t

/-- R83, R84, R85, bit by bit; VF is not written as a flag (D11, log 28). -/
def Obligations.LogicIsBitwiseWithoutFlag : Prop :=
  ∀ (x y : Reg) (s : State),
    (∃ t, exec (.orReg x y) s = .next t ∧
      (∀ k, (t.reg x).getLsbD k = ((s.reg x).getLsbD k || (s.reg y).getLsbD k)) ∧ ChangesOnly (fun p => p = .reg x) s t) ∧
    (∃ t, exec (.andReg x y) s = .next t ∧
      (∀ k, (t.reg x).getLsbD k = ((s.reg x).getLsbD k && (s.reg y).getLsbD k)) ∧ ChangesOnly (fun p => p = .reg x) s t) ∧
    (∃ t, exec (.xorReg x y) s = .next t ∧
      (∀ k, (t.reg x).getLsbD k = ((s.reg x).getLsbD k ^^ (s.reg y).getLsbD k)) ∧ ChangesOnly (fun p => p = .reg x) s t)

/-- R86; with x = VF the sum stays and not the carry (R79's write order, D10, log 13). -/
def Obligations.AddWritesSumAndCarry : Prop :=
  ∀ (x y : Reg) (s : State), ∃ t, exec (.addReg x y) s = .next t ∧
    (t.reg x).toNat = ((s.reg x).toNat + (s.reg y).toNat) % 256 ∧
    (x ≠ VF → 255 < (s.reg x).toNat + (s.reg y).toNat → t.reg VF = 1) ∧
    (x ≠ VF → (s.reg x).toNat + (s.reg y).toNat ≤ 255 → t.reg VF = 0) ∧
    ChangesOnly (fun p => p = .reg x ∨ p = .reg VF) s t

/-- R87, R89; with x = VF the difference stays (R79's write order, D10, log 13). -/
def Obligations.SubtractWritesDifferenceAndNoBorrow : Prop :=
  ∀ (x y : Reg) (s : State),
    (∃ t, exec (.subReg x y) s = .next t ∧ (t.reg x).toNat = ((s.reg x).toNat + 256 - (s.reg y).toNat) % 256 ∧
      (x ≠ VF → (s.reg y).toNat ≤ (s.reg x).toNat → t.reg VF = 1) ∧
      (x ≠ VF → (s.reg x).toNat < (s.reg y).toNat → t.reg VF = 0) ∧
      ChangesOnly (fun p => p = .reg x ∨ p = .reg VF) s t) ∧
    (∃ t, exec (.subnReg x y) s = .next t ∧ (t.reg x).toNat = ((s.reg y).toNat + 256 - (s.reg x).toNat) % 256 ∧
      (x ≠ VF → (s.reg x).toNat ≤ (s.reg y).toNat → t.reg VF = 1) ∧
      (x ≠ VF → (s.reg y).toNat < (s.reg x).toNat → t.reg VF = 0) ∧
      ChangesOnly (fun p => p = .reg x ∨ p = .reg VF) s t)

/-- R88, R90: VX is shifted, whatever Y is; with x = VF the result stays (R79's write order, D10, log 13). -/
def Obligations.ShiftsWriteTheBitShiftedOut : Prop :=
  ∀ (x y : Reg) (s : State),
    (∃ t, exec (.shr x y) s = .next t ∧ (t.reg x).toNat = (s.reg x).toNat / 2 ∧
      (x ≠ VF → (t.reg VF).toNat = (s.reg x).toNat % 2) ∧ ChangesOnly (fun p => p = .reg x ∨ p = .reg VF) s t) ∧
    (∃ t, exec (.shl x y) s = .next t ∧ (t.reg x).toNat = (s.reg x).toNat * 2 % 256 ∧
      (x ≠ VF → (t.reg VF).toNat = (s.reg x).toNat / 128) ∧ ChangesOnly (fun p => p = .reg x ∨ p = .reg VF) s t)

/-- R11, R26: which instructions write which register, over all of them. -/
def Obligations.OnlyTheseInstructionsWriteARegister : Prop :=
  ∀ (i : Instr) (s t : State) (r : Reg), exec i s = .next t → t.reg r ≠ s.reg r → mayWriteReg i r

/-! ### Index, jump with offset, random -/

/-- R100. -/
def Obligations.SetIndexLoadsTheAddress : Prop :=
  ∀ (nnn : Addr12) (s : State), ∃ t, exec (.ldI nnn) s = .next t ∧ t.i.toNat = nnn.toNat ∧
    ChangesOnly (fun p => p = .index) s t

/-- R101: the sum is not masked (D8, log 15); one above 0xFFE raises OutOfBounds.Fetch at the next step. -/
def Obligations.JumpWithOffsetIsNotMasked : Prop :=
  ∀ (nnn : Addr12) (s : State), ∃ t, exec (.jpV0 nnn) s = .next t ∧ t.pc.toNat = nnn.toNat + (s.reg 0).toNat ∧
    ChangesOnly (fun p => p = .pc) s t ∧
    (0xFFE < nnn.toNat + (s.reg 0).toNat → s.loaded = true → s.fault = none → t.FetchRaises)

/-- R102: a byte drawn for this step and no other, masked by NN. The byte is the free value `Config.randByte` at the draw's
number (log 4); nothing is known of it. -/
def Obligations.RandomIsAMaskedFreshDraw : Prop :=
  ∀ (x : Reg) (nn : Byte) (s : State), ∃ t, exec (.rnd x nn) s = .next t ∧
    t.reg x = Config.randByte s.draws &&& nn ∧ t.draws = s.draws + 1 ∧
    (∀ k, nn.getLsbD k = false → (t.reg x).getLsbD k = false) ∧
    ChangesOnly (fun p => p = .reg x ∨ p = .draws) s t

/-! ### Draw -/

/-- R110, R111 (the sampling of the coordinates, the pixel order and redraw: D13, log 14): when every sprite address is in
the address space, exactly the cells that a set sprite bit meets are flipped, each once, VF tells whether one of them was 1,
and redraw is set. The frame buffer is in canonical form, which `HostRunKeepsTheInvariant` keeps. -/
def Obligations.DrawFlipsExactlyTheSpriteCells : Prop :=
  ∀ (x y : Reg) (n : Fin 16) (s : State), FrameBuffer.wf s.fb → (n.val = 0 ∨ s.i.toNat + n.val ≤ 0x1000) →
    ∃ t, exec (.drw x y n) s = .next t ∧ t.redraw = true ∧
      (∀ k, s.SpriteMeets x y n.val k → t.pixel k = 1 - s.pixel k) ∧
      ((∃ k, s.SpriteMeets x y n.val k ∧ s.pixel k = 1) → t.reg VF = 1) ∧
      ((∀ k, s.SpriteMeets x y n.val k → s.pixel k ≠ 1) → t.reg VF = 0) ∧
      ChangesOnly (fun p => p = .reg VF ∨ p = .redraw ∨ ∃ k, p = .pixel k ∧ s.SpriteMeets x y n.val k) s t

/-- R110, R35 (the fault and not a wrap: D3, log 11): a sprite address above 0xFFF raises before anything is written, with
the first offending address. -/
def Obligations.DrawOutsideMemoryRaises : Prop :=
  ∀ (x y : Reg) (n : Fin 16) (s : State), n.val ≠ 0 → 0x1000 < s.i.toNat + n.val →
    ∃ e, e = .dataOutOfBounds (s.pc - 2) (encode (.drw x y n)) (max s.i.toNat 0x1000) ∧
      exec (.drw x y n) s = .next (s.erred e)

/-- R110 (the source's worked example W3): the same sprite drawn twice at the same coordinates restores the frame buffer, and
the second draw reports a collision if the first one lit a cell. The coordinates are not held in VF, which a draw writes. -/
def Obligations.DrawingTwiceRestoresTheScreen : Prop :=
  ∀ (x y : Reg) (n : Fin 16) (s : State), FrameBuffer.wf s.fb → (n.val = 0 ∨ s.i.toNat + n.val ≤ 0x1000) →
    x ≠ VF → y ≠ VF →
    ∃ t u, exec (.drw x y n) s = .next t ∧ exec (.drw x y n) t = .next u ∧ (∀ k, u.pixel k = s.pixel k) ∧
      ((∃ k, s.SpriteMeets x y n.val k ∧ s.pixel k = 0) → u.reg VF = 1)

/-- R112, R22: only CLS and DRW write the frame buffer or the redraw flag, and no instruction clears redraw. -/
def Obligations.OnlyClearAndDrawTouchTheScreen : Prop :=
  ∀ (i : Instr) (s t : State), exec i s = .next t → (s.redraw = true → t.redraw = true) ∧
    (i ≠ .cls → (∀ x y n, i ≠ .drw x y n) → t.redraw = s.redraw ∧ ∀ k, t.pixel k = s.pixel k)

/-- R112, R17, R26: no instruction reads the sound timer or the redraw flag, and DRW alone reads the frame buffer: two states
that differ in these alone give results that differ in these alone. -/
def Obligations.ScreenAndSoundAreNotRead : Prop :=
  ∀ (i : Instr) (s t : State), exec i s = .next t →
    (∀ (b : Byte) (r : Bool), ∃ t', exec i { s with st := b, redraw := r } = .next t' ∧
      t = { t' with st := t.st, redraw := t.redraw }) ∧
    (∀ f : FrameBuffer, (∀ x y n, i ≠ .drw x y n) → ∃ t', exec i { s with fb := f } = .next t' ∧
      t = { t' with fb := t.fb })

/-! ### Keys and timers -/

/-- R120, R121 (that an index above 15 raises is D4, log 12). -/
def Obligations.KeySkipsTestTheNamedKey : Prop :=
  ∀ (x : Reg) (s : State),
    (∀ k : Fin 16, (s.reg x).toNat = k.val →
      (∃ t, exec (.skp x) s = .next t ∧ (s.keys[k] = true → t.pc = s.pc + 2) ∧ (s.keys[k] = false → t.pc = s.pc) ∧
        ChangesOnly (fun p => p = .pc) s t) ∧
      (∃ t, exec (.sknp x) s = .next t ∧ (s.keys[k] = false → t.pc = s.pc + 2) ∧ (s.keys[k] = true → t.pc = s.pc) ∧
        ChangesOnly (fun p => p = .pc) s t)) ∧
    (15 < (s.reg x).toNat →
      exec (.skp x) s = .next (s.erred (.keyOutOfBounds (s.pc - 2) (encode (.skp x)) (s.reg x))) ∧
      exec (.sknp x) s = .next (s.erred (.keyOutOfBounds (s.pc - 2) (encode (.sknp x)) (s.reg x))))

/-- R122, R124, R125: the three timer accessors. -/
def Obligations.TimerAccessorsCopy : Prop :=
  ∀ (x : Reg) (s : State),
    (∃ t, exec (.ldVxDt x) s = .next t ∧ t.reg x = s.dt ∧ ChangesOnly (fun p => p = .reg x) s t) ∧
    (∃ t, exec (.ldDtVx x) s = .next t ∧ t.dt = s.reg x ∧ ChangesOnly (fun p => p = .delay) s t) ∧
    (∃ t, exec (.ldStVx x) s = .next t ∧ t.st = s.reg x ∧ ChangesOnly (fun p => p = .sound) s t)

/-- R123: with no key down pc goes back and the outcome is AwaitingKey; else the index of a key that is down is stored. Which
one, when several are, is the free choice `Config.keyPick` (D14, log 5). -/
def Obligations.WaitForKeyStoresAPressedKey : Prop :=
  ∀ (x : Reg) (s : State),
    ((∀ k : Fin 16, s.keys[k] = false) → ∃ t, exec (.ldVxK x) s = .next t ∧ t.pc = s.pc - 2 ∧ t.reply = .awaitingKey ∧
      ChangesOnly (fun p => p = .pc ∨ p = .reply) s t) ∧
    ((∃ k : Fin 16, s.keys[k] = true) → ∃ t, ∃ k : Fin 16, exec (.ldVxK x) s = .next t ∧ s.keys[k] = true ∧
      (t.reg x).toNat = k.val ∧ ChangesOnly (fun p => p = .reg x) s t)

/-! ### Index and memory -/

/-- R135, R136 (no 12-bit mask, no VF, no mask of the digit: D7, D16, log 15). -/
def Obligations.IndexArithmeticIsNotMasked : Prop :=
  ∀ (x : Reg) (s : State),
    (∃ t, exec (.addI x) s = .next t ∧ t.i.toNat = (s.i.toNat + (s.reg x).toNat) % 65536 ∧
      ChangesOnly (fun p => p = .index) s t) ∧
    (∃ t, exec (.ldF x) s = .next t ∧ t.i.toNat = 0x050 + 5 * (s.reg x).toNat ∧
      ChangesOnly (fun p => p = .index) s t)

/-- R137 (the fault and not a wrap: D3, log 11): three decimal digits at I, I+1, I+2, or an error and no byte written. The
memory is in canonical form, which `HostRunKeepsTheInvariant` keeps. -/
def Obligations.BcdStoresThreeDigits : Prop :=
  ∀ (x : Reg) (s : State), Memory.wf s.cfg s.mem →
    (s.i.toNat + 2 ≤ 0xFFF → ∃ t, exec (.ldB x) s = .next t ∧
      (t.readByte s.i.toNat).toNat = (s.reg x).toNat / 100 ∧
      (t.readByte (s.i.toNat + 1)).toNat = (s.reg x).toNat / 10 % 10 ∧
      (t.readByte (s.i.toNat + 2)).toNat = (s.reg x).toNat % 10 ∧
      ChangesOnly (fun p => ∃ j, j < 3 ∧ p = .byte (s.i.toNat + j)) s t) ∧
    (0xFFF < s.i.toNat + 2 → exec (.ldB x) s =
      .next (s.erred (.dataOutOfBounds (s.pc - 2) (encode (.ldB x)) (max s.i.toNat 0x1000))))

/-- R138 (the fault: D3, log 11; I unchanged: D15, log 15): V0 to VX at I to I+X, or an error and no byte written. -/
def Obligations.StoreWritesRegistersToMemory : Prop :=
  ∀ (x : Reg) (s : State), Memory.wf s.cfg s.mem →
    (s.i.toNat + x.val ≤ 0xFFF → ∃ t, exec (.storeRegs x) s = .next t ∧
      (∀ r : Reg, r ≤ x → t.readByte (s.i.toNat + r.val) = s.reg r) ∧
      ChangesOnly (fun p => ∃ r : Reg, r ≤ x ∧ p = .byte (s.i.toNat + r.val)) s t) ∧
    (0xFFF < s.i.toNat + x.val → exec (.storeRegs x) s =
      .next (s.erred (.dataOutOfBounds (s.pc - 2) (encode (.storeRegs x)) (max s.i.toNat 0x1000))))

/-- R139 (the fault: D3, log 11; I unchanged: D15, log 15): memory at I to I+X into V0 to VX, or an error and no register
written. -/
def Obligations.LoadReadsRegistersFromMemory : Prop :=
  ∀ (x : Reg) (s : State),
    (s.i.toNat + x.val ≤ 0xFFF → ∃ t, exec (.loadRegs x) s = .next t ∧
      (∀ r : Reg, r ≤ x → t.reg r = s.readByte (s.i.toNat + r.val)) ∧
      ChangesOnly (fun p => ∃ r : Reg, r ≤ x ∧ p = .reg r) s t) ∧
    (0xFFF < s.i.toNat + x.val → exec (.loadRegs x) s =
      .next (s.erred (.dataOutOfBounds (s.pc - 2) (encode (.loadRegs x)) (max s.i.toNat 0x1000))))

/-- R138, R139: a block stored and loaded again, whatever the registers hold in between, comes back. -/
def Obligations.LoadAfterStoreGivesTheRegistersBack : Prop :=
  ∀ (x : Reg) (s : State) (v : Vector Byte 16), Memory.wf s.cfg s.mem → s.i.toNat + x.val ≤ 0xFFF →
    ∃ t u, exec (.storeRegs x) s = .next t ∧ exec (.loadRegs x) { t with v := v } = .next u ∧
      ∀ r : Reg, r ≤ x → u.reg r = s.reg r

/-- R41, R190 (one array for code and data: D21, log 17): two registers that FX55 stores at pc are the opcode the next step
fetches. -/
def Obligations.StoredBytesAreFetchedNext : Prop :=
  ∀ (x r : Reg) (s : State), Memory.wf s.cfg s.mem → s.i.toNat + x.val ≤ 0xFFF → r.val + 1 ≤ x.val →
    s.pc.toNat = s.i.toNat + r.val →
    ∃ t, exec (.storeRegs x) s = .next t ∧
      ∀ q : Reg, q.val = r.val + 1 → t.fetchWord.toNat = (s.reg r).toNat * 256 + (s.reg q).toNat

/-! ### Whole-machine rules of the special state -/

/-- R26, R12, R14, R15, R16, R17, R20, R22, R24: which instructions write I, the stack, the timers and memory; no instruction
writes the keys, `loaded` or the parameters; only RND draws. -/
def Obligations.OnlyTheseInstructionsWriteSpecialState : Prop :=
  ∀ (i : Instr) (s t : State), exec i s = .next t →
    (t.i ≠ s.i → (∃ nnn, i = .ldI nnn) ∨ ∃ x, i = .addI x ∨ i = .ldF x) ∧
    (t.sp ≠ s.sp → i = .ret ∨ ∃ nnn, i = .call nnn) ∧
    (t.stack ≠ s.stack → ∃ nnn, i = .call nnn) ∧
    (t.dt ≠ s.dt → ∃ x, i = .ldDtVx x) ∧
    (t.st ≠ s.st → ∃ x, i = .ldStVx x) ∧
    (t.mem ≠ s.mem → ∃ x, i = .ldB x ∨ i = .storeRegs x) ∧
    (t.draws ≠ s.draws → ∃ x nn, i = .rnd x nn) ∧
    t.keys = s.keys ∧ t.loaded = s.loaded ∧ t.cfg = s.cfg

/-! ### The host's calls -/

/-- R160, through the host's call (the tone of the last tick: D26, log 20). -/
def Obligations.TickCountsBothTimersDown : Prop :=
  ∀ s : State, ∃ t, hostAct .tick s = .next t ∧ t.dt.toNat = s.dt.toNat - 1 ∧ t.st.toNat = s.st.toNat - 1 ∧
    (0 < s.st.toNat → t.reply = .tone true) ∧ (s.st.toNat = 0 → t.reply = .tone false) ∧
    ChangesOnly (fun p => p = .delay ∨ p = .sound ∨ p = .reply) s t

/-- R160, R125 (the tone of the last tick: D26, log 20): `n + 1` ticks in a row count both timers down to no less than 0, and
the last of them reports the tone exactly when the sound timer was above `n`. -/
def Obligations.TicksRunTheTimersOut : Prop :=
  ∀ (n : Nat) (s : State), ∃ t, hostRun (List.replicate (n + 1) .tick) s = .next t ∧
    t.dt.toNat = s.dt.toNat - (n + 1) ∧ t.st.toNat = s.st.toNat - (n + 1) ∧ t.reply = .tone (decide (n < s.st.toNat)) ∧
    ChangesOnly (fun p => p = .delay ∨ p = .sound ∨ p = .reply) s t

/-- R182 (empty, odd and repeated loads: D22, log 21): the load copies the image to 0x200 and sets `loaded`; an unreadable or
too long source is reported and changes nothing; a second load is no move. -/
def Obligations.LoadCopiesTheImageOnce : Prop :=
  ∀ (s : State), Memory.wf s.cfg s.mem →
    (s.loaded = false →
      (∀ bytes : List Byte, bytes.length ≤ 3584 → ∃ t, hostAct (.load (some bytes)) s = .next t ∧
        (∀ (j : Nat) (b : Byte), bytes[j]? = some b → t.readByte (0x200 + j) = b) ∧ t.loaded = true ∧ t.reply = .ok ∧
        ChangesOnly (fun p => p = .loaded ∨ p = .reply ∨ ∃ j, j < bytes.length ∧ p = .byte (0x200 + j)) s t) ∧
      (∀ bytes : List Byte, 3584 < bytes.length →
        hostAct (.load (some bytes)) s = .next { s with reply := .loadError (.capacity bytes.length) }) ∧
      hostAct (.load none) s = .next { s with reply := .loadError .unreadable }) ∧
    (s.loaded = true → ∀ source, hostAct (.load source) s = .refused .secondLoad)

/-- R170, R171 (an index above 15: D4, log 12; a step before the load: D22, log 9): what set_key, clear_redraw and read do,
and the calls that are no move. -/
def Obligations.KeyRedrawAndRefusedCalls : Prop :=
  ∀ s : State,
    (∀ (k : Fin 16) (b : Bool), ∃ t, hostAct (.setKey k.val b) s = .next t ∧ t.keys[k] = b ∧
      ChangesOnly (fun p => p = .key k) s t) ∧
    (∀ (k : Nat) (b : Bool), 15 < k → hostAct (.setKey k b) s = .refused .keyIndexAbove15) ∧
    (∃ t, hostAct .clearRedraw s = .next t ∧ t.redraw = false ∧ ChangesOnly (fun p => p = .redraw) s t) ∧
    hostAct .read s = .next s ∧
    (s.loaded = false → step s = .refused .stepBeforeLoad)

/-- R26: what the host reads is the state, cell by cell: byte `a` of the snapshot's memory, cell `k` of its frame buffer. -/
def Obligations.SnapshotShowsEveryCell : Prop :=
  ∀ s : State,
    (∀ a, a < 4096 → s.snapshot.mem[a]? = some (s.readByte a)) ∧ s.snapshot.mem.length = 4096 ∧
    (∀ k, k < 2048 → s.snapshot.fb[k]? = some (s.pixel k)) ∧ s.snapshot.fb.length = 2048 ∧
    (∀ r : Reg, s.snapshot.v[r] = s.reg r)

/-! ### Construction and the invariant -/

/-- R180, R21, R31: the values after construction, for every value of the parameters: those the source states (registers, I,
pc, memory with the glyph table at 0x050) and those the spec decides (sp, stack, timers, frame buffer, keys and flags: D17, D2,
D22, log 7, log 8, log 9). The reset state is this one with the default parameters. -/
def Obligations.ConstructionValues : Prop :=
  State.reset = State.construct Config.default ∧
  ∀ (cfg : Config) (s : State), s = State.construct cfg →
    (∀ r : Reg, s.reg r = 0) ∧ s.i = 0 ∧ s.pc = 0x200 ∧
    (∀ a, a < 0x050 ∨ 0x09F < a → s.readByte a = 0) ∧
    (∀ (j : Nat) (b : Byte), cfg.wellFormed = true → cfg.glyphTable[j]? = some b → s.readByte (0x050 + j) = b) ∧
    s.sp = 0 ∧ (∀ k : Fin 16, s.stack[k] = 0) ∧ s.dt = 0 ∧ s.st = 0 ∧ (∀ k, s.pixel k = 0) ∧
    (∀ k : Fin 16, s.keys[k] = false) ∧ s.redraw = false ∧ s.fault = none ∧ s.loaded = false ∧ s.cfg = cfg

/-- R180 against R13, R18, R19: the invariant holds after construction, whatever the parameters are, and so at reset. -/
def Obligations.InvariantHoldsAtConstruction : Prop := State.reset.Inv ∧ ∀ cfg : Config, (State.construct cfg).Inv

/-- R13, R18, R19, R66, R151 (each "derived" in the spec): every step, from every state that meets the invariant, keeps it. -/
def Obligations.StepKeepsTheInvariant : Prop := ∀ s t : State, s.Inv → step s = .next t → t.Inv

/-- The same for every run: any calls of the host in any order (R40, R161, R170), from any state that meets the invariant. -/
def Obligations.HostRunKeepsTheInvariant : Prop :=
  ∀ (calls : List HostAction) (s t : State), s.Inv → hostRun calls s = .next t → t.Inv

/-- R7: the parameters are fixed for one machine; R24, R182: a loaded core stays loaded; R23: a latched one stays latched. For
every run. -/
def Obligations.RunsKeepParametersLoadAndLatch : Prop :=
  ∀ (calls : List HostAction) (s t : State), hostRun calls s = .next t →
    t.cfg = s.cfg ∧ (s.loaded = true → t.loaded = true) ∧ (∀ e, s.fault = some e → t.fault = some e)

/-- R171: what the host's calls other than step cannot write: whatever load, ticks, key writes, redraw clears and reads it
makes after the load, registers, I, pc, stack, memory and frame buffer are the core's alone. -/
def Obligations.HostCannotWriteCoreState : Prop :=
  ∀ (calls : List HostAction) (s t : State), s.loaded = true → .step ∉ calls → hostRun calls s = .next t →
    t.v = s.v ∧ t.i = s.i ∧ t.pc = s.pc ∧ t.sp = s.sp ∧ t.stack = s.stack ∧ t.mem = s.mem ∧ t.fb = s.fb ∧
    t.fault = s.fault ∧ t.draws = s.draws
end

