-- ==== Sys2Proof/Laws/Cells.lean ====
section
/-! SUPPORT. The laws of the byte stores: a write is read back, leaves every other index alone and keeps the canonical form;
two stores in canonical form that read alike are equal. -/

namespace Sys2Proof.Machine

variable (u : Nat → Byte)

/-- A cell put before a list is read back where the rest does not list its index. -/
theorem cellsRead_cellsCons_same (a : Nat) (b : Byte) (rest : List Host.Cell) (h : cellsRead u rest a = u a) :
    cellsRead u (cellsCons u a b rest) a = b := by
  unfold cellsCons
  split
  · simp_all
  · simp [cellsRead]

theorem cellsRead_cellsCons_other (a c : Nat) (b : Byte) (rest : List Host.Cell) (h : c ≠ a) :
    cellsRead u (cellsCons u a b rest) c = cellsRead u rest c := by
  unfold cellsCons
  split
  · rfl
  · simp [cellsRead, Ne.symm h]

/-- An index that no cell lists reads as unlisted. -/
theorem cellsRead_unlisted (m : List Host.Cell) (a : Nat) (h : ∀ c ∈ m, c.1 ≠ a) : cellsRead u m a = u a := by
  induction m with
  | nil => rfl
  | cons c rest ih =>
    obtain ⟨k, b⟩ := c
    rw [cellsRead, if_neg (h (k, b) (by simp))]
    exact ih fun c hc => h c (by simp [hc])

/-- A write leaves every other index alone, in every list. -/
theorem cellsRead_cellsWrite_other (m : List Host.Cell) (a c : Nat) (b : Byte) (h : c ≠ a) :
    cellsRead u (cellsWrite u m a b) c = cellsRead u m c := by
  induction m with
  | nil => simp [cellsWrite, cellsRead_cellsCons_other u a c b [] h]
  | cons p rest ih =>
    obtain ⟨k, d⟩ := p
    rw [cellsWrite]
    split
    · exact cellsRead_cellsCons_other u a c b _ h
    · split
      · next hk => rw [cellsRead_cellsCons_other u a c b _ h, cellsRead, if_neg (by omega)]
      · simp only [cellsRead, ih]

/-- A write is read back, in a store with rising indexes. -/
theorem cellsRead_cellsWrite_same (m : List Host.Cell) (a : Nat) (b : Byte)
    (h : m.Pairwise (fun p q => p.1 < q.1)) : cellsRead u (cellsWrite u m a b) a = b := by
  induction m with
  | nil => exact cellsRead_cellsCons_same u a b [] rfl
  | cons p rest ih =>
    obtain ⟨k, d⟩ := p
    have hrest := List.pairwise_cons.1 h
    rw [cellsWrite]
    split
    · next hk =>
      refine cellsRead_cellsCons_same u a b _ (cellsRead_unlisted u _ a ?_)
      intro c hc
      rcases List.mem_cons.1 hc with rfl | hc
      · exact fun e => by simp_all
      · have := hrest.1 c hc
        simp at this
        omega
    · split
      · next hk =>
        refine cellsRead_cellsCons_same u a b _ (cellsRead_unlisted u _ a ?_)
        intro c hc
        have := hrest.1 c hc
        simp at this
        omega
      · next hk => rw [cellsRead, if_neg (by omega), ih hrest.2]

/-- Every cell of a written store is the written one or was there before, and the written one differs from unlisted. -/
theorem mem_cellsWrite (m : List Host.Cell) (a : Nat) (b : Byte) (c : Host.Cell) (h : c ∈ cellsWrite u m a b) :
    (c = (a, b) ∧ b ≠ u a) ∨ c ∈ m := by
  have hcons : ∀ rest, c ∈ cellsCons u a b rest → (c = (a, b) ∧ b ≠ u a) ∨ c ∈ rest := by
    intro rest hc
    unfold cellsCons at hc
    split at hc
    · exact .inr hc
    · next hb => exact (List.mem_cons.1 hc).imp (fun e => ⟨e, hb⟩) id
  induction m with
  | nil => exact (hcons [] h)
  | cons p rest ih =>
    obtain ⟨k, d⟩ := p
    rw [cellsWrite] at h
    split at h
    · exact hcons _ h
    · split at h
      · exact (hcons _ h).imp id (List.mem_cons_of_mem _)
      · rcases List.mem_cons.1 h with rfl | h
        · exact .inr (by simp)
        · exact (ih h).imp id (List.mem_cons_of_mem _)

theorem cellsWrite_pairwise (m : List Host.Cell) (a : Nat) (b : Byte) (h : m.Pairwise (fun p q => p.1 < q.1)) :
    (cellsWrite u m a b).Pairwise (fun p q => p.1 < q.1) := by
  have hcons : ∀ rest : List Host.Cell, (∀ c ∈ rest, a < c.1) → rest.Pairwise (fun p q => p.1 < q.1) →
      (cellsCons u a b rest).Pairwise (fun p q => p.1 < q.1) := by
    intro rest h1 h2
    unfold cellsCons
    split
    · exact h2
    · exact List.pairwise_cons.2 ⟨h1, h2⟩
  induction m with
  | nil => exact hcons [] (by simp) .nil
  | cons p rest ih =>
    obtain ⟨k, d⟩ := p
    have hp := List.pairwise_cons.1 h
    rw [cellsWrite]
    split
    · next hk =>
      refine hcons _ (fun c hc => ?_) h
      rcases List.mem_cons.1 hc with rfl | hc
      · exact hk
      · have := hp.1 c hc
        simp at this
        omega
    · split
      · next hk => exact hcons _ (fun c hc => by have := hp.1 c hc; simp at this; omega) hp.2
      · next hk =>
        refine List.pairwise_cons.2 ⟨fun c hc => ?_, ih hp.2⟩
        rcases mem_cellsWrite u rest a b c hc with ⟨rfl, -⟩ | hc
        · show k < a
          omega
        · exact hp.1 c hc

/-- A write below the bound keeps the canonical form. -/
theorem cellsWrite_wf (bound : Nat) (m : List Host.Cell) (a : Nat) (b : Byte) (ha : a < bound)
    (h : cellsWf u bound m) : cellsWf u bound (cellsWrite u m a b) := by
  refine ⟨cellsWrite_pairwise u m a b h.1, fun c hc => ?_⟩
  rcases mem_cellsWrite u m a b c hc with ⟨rfl, hb⟩ | hc
  · exact ⟨ha, hb⟩
  · exact h.2 c hc

/-- Nothing listed is in canonical form. -/
theorem cellsWf_nil (bound : Nat) : cellsWf u bound [] := ⟨.nil, by simp⟩

/-- Equal memories are equal data: two stores in canonical form that read alike at every index are the same list. -/
theorem cells_ext (bound : Nat) (m m' : List Host.Cell) (h : cellsWf u bound m) (h' : cellsWf u bound m')
    (hr : ∀ a, cellsRead u m a = cellsRead u m' a) : m = m' := by
  have low : ∀ (l : List Host.Cell) (k : Nat), (∀ c ∈ l, k < c.1) → cellsRead u l k = u k :=
    fun l k hl => cellsRead_unlisted u l k fun c hc => by have := hl c hc; omega
  induction m generalizing m' with
  | nil =>
    cases m' with
    | nil => rfl
    | cons p rest =>
      have := hr p.1
      simp only [cellsRead] at this
      exact absurd (by simpa using this.symm) (h'.2 p (by simp)).2
  | cons p rest ih =>
    obtain ⟨k, b⟩ := p
    have hp := List.pairwise_cons.1 h.1
    have hb := h.2 (k, b) (by simp)
    cases m' with
    | nil =>
      have := hr k
      simp only [cellsRead] at this
      exact absurd (by simpa using this) hb.2
    | cons p' rest' =>
      obtain ⟨k', b'⟩ := p'
      have hp' := List.pairwise_cons.1 h'.1
      have hb' := h'.2 (k', b') (by simp)
      have hk : k = k' := by
        rcases Nat.lt_trichotomy k k' with hlt | heq | hlt
        · have hx := hr k
          rw [cellsRead, if_pos rfl, low ((k', b') :: rest') k ?_] at hx
          · exact absurd hx hb.2
          · intro c hc
            rcases List.mem_cons.1 hc with rfl | hc
            · exact hlt
            · have := hp'.1 c hc
              simp at this
              omega
        · exact heq
        · have hx := hr k'
          rw [low ((k, b) :: rest) k' ?_, cellsRead, if_pos rfl] at hx
          · exact absurd hx.symm hb'.2
          · intro c hc
            rcases List.mem_cons.1 hc with rfl | hc
            · exact hlt
            · have := hp.1 c hc
              simp at this
              omega
      subst hk
      have hbb : b = b' := by simpa [cellsRead] using hr k
      subst hbb
      refine congrArg _ (ih rest' ⟨hp.2, fun c hc => h.2 c (by simp [hc])⟩
        ⟨hp'.2, fun c hc => h'.2 c (by simp [hc])⟩ fun a => ?_)
      by_cases ha : k = a
      · subst ha
        rw [low rest k hp.1, low rest' k hp'.1]
      · simpa [cellsRead, ha] using hr a

end Sys2Proof.Machine
end

