-- ==== Sys2Proof/Laws/State.lean ====
section
/-! SUPPORT. What each state update does to each field of State, one lemma a pair, all true by rfl, so that no proof unfolds
a record update; and the same for the accessors `reg`, `readByte` and `pixel`. -/

namespace Sys2Proof.Machine.State

variable (s : State)

/-! ### setReg -/

@[simp] theorem setReg_v (x : Reg) (b : Byte) : (s.setReg x b).v = s.v.set x b := rfl
@[simp] theorem setReg_i (x : Reg) (b : Byte) : (s.setReg x b).i = s.i := rfl
@[simp] theorem setReg_pc (x : Reg) (b : Byte) : (s.setReg x b).pc = s.pc := rfl
@[simp] theorem setReg_sp (x : Reg) (b : Byte) : (s.setReg x b).sp = s.sp := rfl
@[simp] theorem setReg_stack (x : Reg) (b : Byte) : (s.setReg x b).stack = s.stack := rfl
@[simp] theorem setReg_dt (x : Reg) (b : Byte) : (s.setReg x b).dt = s.dt := rfl
@[simp] theorem setReg_st (x : Reg) (b : Byte) : (s.setReg x b).st = s.st := rfl
@[simp] theorem setReg_mem (x : Reg) (b : Byte) : (s.setReg x b).mem = s.mem := rfl
@[simp] theorem setReg_fb (x : Reg) (b : Byte) : (s.setReg x b).fb = s.fb := rfl
@[simp] theorem setReg_keys (x : Reg) (b : Byte) : (s.setReg x b).keys = s.keys := rfl
@[simp] theorem setReg_redraw (x : Reg) (b : Byte) : (s.setReg x b).redraw = s.redraw := rfl
@[simp] theorem setReg_fault (x : Reg) (b : Byte) : (s.setReg x b).fault = s.fault := rfl
@[simp] theorem setReg_loaded (x : Reg) (b : Byte) : (s.setReg x b).loaded = s.loaded := rfl
@[simp] theorem setReg_cfg (x : Reg) (b : Byte) : (s.setReg x b).cfg = s.cfg := rfl
@[simp] theorem setReg_draws (x : Reg) (b : Byte) : (s.setReg x b).draws = s.draws := rfl
@[simp] theorem setReg_reply (x : Reg) (b : Byte) : (s.setReg x b).reply = s.reply := rfl
@[simp] theorem setReg_readByte (x : Reg) (b : Byte) (n : Nat) : (s.setReg x b).readByte n = s.readByte n := rfl
@[simp] theorem setReg_pixel (x : Reg) (b : Byte) (n : Nat) : (s.setReg x b).pixel n = s.pixel n := rfl

/-! ### setIndex -/

@[simp] theorem setIndex_v (w : Word) : (s.setIndex w).v = s.v := rfl
@[simp] theorem setIndex_i (w : Word) : (s.setIndex w).i = w := rfl
@[simp] theorem setIndex_pc (w : Word) : (s.setIndex w).pc = s.pc := rfl
@[simp] theorem setIndex_sp (w : Word) : (s.setIndex w).sp = s.sp := rfl
@[simp] theorem setIndex_stack (w : Word) : (s.setIndex w).stack = s.stack := rfl
@[simp] theorem setIndex_dt (w : Word) : (s.setIndex w).dt = s.dt := rfl
@[simp] theorem setIndex_st (w : Word) : (s.setIndex w).st = s.st := rfl
@[simp] theorem setIndex_mem (w : Word) : (s.setIndex w).mem = s.mem := rfl
@[simp] theorem setIndex_fb (w : Word) : (s.setIndex w).fb = s.fb := rfl
@[simp] theorem setIndex_keys (w : Word) : (s.setIndex w).keys = s.keys := rfl
@[simp] theorem setIndex_redraw (w : Word) : (s.setIndex w).redraw = s.redraw := rfl
@[simp] theorem setIndex_fault (w : Word) : (s.setIndex w).fault = s.fault := rfl
@[simp] theorem setIndex_loaded (w : Word) : (s.setIndex w).loaded = s.loaded := rfl
@[simp] theorem setIndex_cfg (w : Word) : (s.setIndex w).cfg = s.cfg := rfl
@[simp] theorem setIndex_draws (w : Word) : (s.setIndex w).draws = s.draws := rfl
@[simp] theorem setIndex_reply (w : Word) : (s.setIndex w).reply = s.reply := rfl
@[simp] theorem setIndex_reg (w : Word) (r : Reg) : (s.setIndex w).reg r = s.reg r := rfl
@[simp] theorem setIndex_readByte (w : Word) (n : Nat) : (s.setIndex w).readByte n = s.readByte n := rfl
@[simp] theorem setIndex_pixel (w : Word) (n : Nat) : (s.setIndex w).pixel n = s.pixel n := rfl

/-! ### jump -/

@[simp] theorem jump_v (w : Word) : (s.jump w).v = s.v := rfl
@[simp] theorem jump_i (w : Word) : (s.jump w).i = s.i := rfl
@[simp] theorem jump_pc (w : Word) : (s.jump w).pc = w := rfl
@[simp] theorem jump_sp (w : Word) : (s.jump w).sp = s.sp := rfl
@[simp] theorem jump_stack (w : Word) : (s.jump w).stack = s.stack := rfl
@[simp] theorem jump_dt (w : Word) : (s.jump w).dt = s.dt := rfl
@[simp] theorem jump_st (w : Word) : (s.jump w).st = s.st := rfl
@[simp] theorem jump_mem (w : Word) : (s.jump w).mem = s.mem := rfl
@[simp] theorem jump_fb (w : Word) : (s.jump w).fb = s.fb := rfl
@[simp] theorem jump_keys (w : Word) : (s.jump w).keys = s.keys := rfl
@[simp] theorem jump_redraw (w : Word) : (s.jump w).redraw = s.redraw := rfl
@[simp] theorem jump_fault (w : Word) : (s.jump w).fault = s.fault := rfl
@[simp] theorem jump_loaded (w : Word) : (s.jump w).loaded = s.loaded := rfl
@[simp] theorem jump_cfg (w : Word) : (s.jump w).cfg = s.cfg := rfl
@[simp] theorem jump_draws (w : Word) : (s.jump w).draws = s.draws := rfl
@[simp] theorem jump_reply (w : Word) : (s.jump w).reply = s.reply := rfl
@[simp] theorem jump_reg (w : Word) (r : Reg) : (s.jump w).reg r = s.reg r := rfl
@[simp] theorem jump_readByte (w : Word) (n : Nat) : (s.jump w).readByte n = s.readByte n := rfl
@[simp] theorem jump_pixel (w : Word) (n : Nat) : (s.jump w).pixel n = s.pixel n := rfl

/-! ### setDelay -/

@[simp] theorem setDelay_v (b : Byte) : (s.setDelay b).v = s.v := rfl
@[simp] theorem setDelay_i (b : Byte) : (s.setDelay b).i = s.i := rfl
@[simp] theorem setDelay_pc (b : Byte) : (s.setDelay b).pc = s.pc := rfl
@[simp] theorem setDelay_sp (b : Byte) : (s.setDelay b).sp = s.sp := rfl
@[simp] theorem setDelay_stack (b : Byte) : (s.setDelay b).stack = s.stack := rfl
@[simp] theorem setDelay_dt (b : Byte) : (s.setDelay b).dt = b := rfl
@[simp] theorem setDelay_st (b : Byte) : (s.setDelay b).st = s.st := rfl
@[simp] theorem setDelay_mem (b : Byte) : (s.setDelay b).mem = s.mem := rfl
@[simp] theorem setDelay_fb (b : Byte) : (s.setDelay b).fb = s.fb := rfl
@[simp] theorem setDelay_keys (b : Byte) : (s.setDelay b).keys = s.keys := rfl
@[simp] theorem setDelay_redraw (b : Byte) : (s.setDelay b).redraw = s.redraw := rfl
@[simp] theorem setDelay_fault (b : Byte) : (s.setDelay b).fault = s.fault := rfl
@[simp] theorem setDelay_loaded (b : Byte) : (s.setDelay b).loaded = s.loaded := rfl
@[simp] theorem setDelay_cfg (b : Byte) : (s.setDelay b).cfg = s.cfg := rfl
@[simp] theorem setDelay_draws (b : Byte) : (s.setDelay b).draws = s.draws := rfl
@[simp] theorem setDelay_reply (b : Byte) : (s.setDelay b).reply = s.reply := rfl
@[simp] theorem setDelay_reg (b : Byte) (r : Reg) : (s.setDelay b).reg r = s.reg r := rfl
@[simp] theorem setDelay_readByte (b : Byte) (n : Nat) : (s.setDelay b).readByte n = s.readByte n := rfl
@[simp] theorem setDelay_pixel (b : Byte) (n : Nat) : (s.setDelay b).pixel n = s.pixel n := rfl

/-! ### setSound -/

@[simp] theorem setSound_v (b : Byte) : (s.setSound b).v = s.v := rfl
@[simp] theorem setSound_i (b : Byte) : (s.setSound b).i = s.i := rfl
@[simp] theorem setSound_pc (b : Byte) : (s.setSound b).pc = s.pc := rfl
@[simp] theorem setSound_sp (b : Byte) : (s.setSound b).sp = s.sp := rfl
@[simp] theorem setSound_stack (b : Byte) : (s.setSound b).stack = s.stack := rfl
@[simp] theorem setSound_dt (b : Byte) : (s.setSound b).dt = s.dt := rfl
@[simp] theorem setSound_st (b : Byte) : (s.setSound b).st = b := rfl
@[simp] theorem setSound_mem (b : Byte) : (s.setSound b).mem = s.mem := rfl
@[simp] theorem setSound_fb (b : Byte) : (s.setSound b).fb = s.fb := rfl
@[simp] theorem setSound_keys (b : Byte) : (s.setSound b).keys = s.keys := rfl
@[simp] theorem setSound_redraw (b : Byte) : (s.setSound b).redraw = s.redraw := rfl
@[simp] theorem setSound_fault (b : Byte) : (s.setSound b).fault = s.fault := rfl
@[simp] theorem setSound_loaded (b : Byte) : (s.setSound b).loaded = s.loaded := rfl
@[simp] theorem setSound_cfg (b : Byte) : (s.setSound b).cfg = s.cfg := rfl
@[simp] theorem setSound_draws (b : Byte) : (s.setSound b).draws = s.draws := rfl
@[simp] theorem setSound_reply (b : Byte) : (s.setSound b).reply = s.reply := rfl
@[simp] theorem setSound_reg (b : Byte) (r : Reg) : (s.setSound b).reg r = s.reg r := rfl
@[simp] theorem setSound_readByte (b : Byte) (n : Nat) : (s.setSound b).readByte n = s.readByte n := rfl
@[simp] theorem setSound_pixel (b : Byte) (n : Nat) : (s.setSound b).pixel n = s.pixel n := rfl

/-! ### setRedraw -/

@[simp] theorem setRedraw_v (b : Bool) : (s.setRedraw b).v = s.v := rfl
@[simp] theorem setRedraw_i (b : Bool) : (s.setRedraw b).i = s.i := rfl
@[simp] theorem setRedraw_pc (b : Bool) : (s.setRedraw b).pc = s.pc := rfl
@[simp] theorem setRedraw_sp (b : Bool) : (s.setRedraw b).sp = s.sp := rfl
@[simp] theorem setRedraw_stack (b : Bool) : (s.setRedraw b).stack = s.stack := rfl
@[simp] theorem setRedraw_dt (b : Bool) : (s.setRedraw b).dt = s.dt := rfl
@[simp] theorem setRedraw_st (b : Bool) : (s.setRedraw b).st = s.st := rfl
@[simp] theorem setRedraw_mem (b : Bool) : (s.setRedraw b).mem = s.mem := rfl
@[simp] theorem setRedraw_fb (b : Bool) : (s.setRedraw b).fb = s.fb := rfl
@[simp] theorem setRedraw_keys (b : Bool) : (s.setRedraw b).keys = s.keys := rfl
@[simp] theorem setRedraw_redraw (b : Bool) : (s.setRedraw b).redraw = b := rfl
@[simp] theorem setRedraw_fault (b : Bool) : (s.setRedraw b).fault = s.fault := rfl
@[simp] theorem setRedraw_loaded (b : Bool) : (s.setRedraw b).loaded = s.loaded := rfl
@[simp] theorem setRedraw_cfg (b : Bool) : (s.setRedraw b).cfg = s.cfg := rfl
@[simp] theorem setRedraw_draws (b : Bool) : (s.setRedraw b).draws = s.draws := rfl
@[simp] theorem setRedraw_reply (b : Bool) : (s.setRedraw b).reply = s.reply := rfl
@[simp] theorem setRedraw_reg (b : Bool) (r : Reg) : (s.setRedraw b).reg r = s.reg r := rfl
@[simp] theorem setRedraw_readByte (b : Bool) (n : Nat) : (s.setRedraw b).readByte n = s.readByte n := rfl
@[simp] theorem setRedraw_pixel (b : Bool) (n : Nat) : (s.setRedraw b).pixel n = s.pixel n := rfl

/-! ### countDraw -/

@[simp] theorem countDraw_v : s.countDraw.v = s.v := rfl
@[simp] theorem countDraw_i : s.countDraw.i = s.i := rfl
@[simp] theorem countDraw_pc : s.countDraw.pc = s.pc := rfl
@[simp] theorem countDraw_sp : s.countDraw.sp = s.sp := rfl
@[simp] theorem countDraw_stack : s.countDraw.stack = s.stack := rfl
@[simp] theorem countDraw_dt : s.countDraw.dt = s.dt := rfl
@[simp] theorem countDraw_st : s.countDraw.st = s.st := rfl
@[simp] theorem countDraw_mem : s.countDraw.mem = s.mem := rfl
@[simp] theorem countDraw_fb : s.countDraw.fb = s.fb := rfl
@[simp] theorem countDraw_keys : s.countDraw.keys = s.keys := rfl
@[simp] theorem countDraw_redraw : s.countDraw.redraw = s.redraw := rfl
@[simp] theorem countDraw_fault : s.countDraw.fault = s.fault := rfl
@[simp] theorem countDraw_loaded : s.countDraw.loaded = s.loaded := rfl
@[simp] theorem countDraw_cfg : s.countDraw.cfg = s.cfg := rfl
@[simp] theorem countDraw_draws : s.countDraw.draws = s.draws + 1 := rfl
@[simp] theorem countDraw_reply : s.countDraw.reply = s.reply := rfl
@[simp] theorem countDraw_reg  (r : Reg) : s.countDraw.reg r = s.reg r := rfl
@[simp] theorem countDraw_readByte  (n : Nat) : s.countDraw.readByte n = s.readByte n := rfl
@[simp] theorem countDraw_pixel  (n : Nat) : s.countDraw.pixel n = s.pixel n := rfl

/-! ### writeByte -/

@[simp] theorem writeByte_v (a : Nat) (b : Byte) : (s.writeByte a b).v = s.v := rfl
@[simp] theorem writeByte_i (a : Nat) (b : Byte) : (s.writeByte a b).i = s.i := rfl
@[simp] theorem writeByte_pc (a : Nat) (b : Byte) : (s.writeByte a b).pc = s.pc := rfl
@[simp] theorem writeByte_sp (a : Nat) (b : Byte) : (s.writeByte a b).sp = s.sp := rfl
@[simp] theorem writeByte_stack (a : Nat) (b : Byte) : (s.writeByte a b).stack = s.stack := rfl
@[simp] theorem writeByte_dt (a : Nat) (b : Byte) : (s.writeByte a b).dt = s.dt := rfl
@[simp] theorem writeByte_st (a : Nat) (b : Byte) : (s.writeByte a b).st = s.st := rfl
@[simp] theorem writeByte_mem (a : Nat) (b : Byte) : (s.writeByte a b).mem = cellsWrite (unlistedByte s.cfg) s.mem a b := rfl
@[simp] theorem writeByte_fb (a : Nat) (b : Byte) : (s.writeByte a b).fb = s.fb := rfl
@[simp] theorem writeByte_keys (a : Nat) (b : Byte) : (s.writeByte a b).keys = s.keys := rfl
@[simp] theorem writeByte_redraw (a : Nat) (b : Byte) : (s.writeByte a b).redraw = s.redraw := rfl
@[simp] theorem writeByte_fault (a : Nat) (b : Byte) : (s.writeByte a b).fault = s.fault := rfl
@[simp] theorem writeByte_loaded (a : Nat) (b : Byte) : (s.writeByte a b).loaded = s.loaded := rfl
@[simp] theorem writeByte_cfg (a : Nat) (b : Byte) : (s.writeByte a b).cfg = s.cfg := rfl
@[simp] theorem writeByte_draws (a : Nat) (b : Byte) : (s.writeByte a b).draws = s.draws := rfl
@[simp] theorem writeByte_reply (a : Nat) (b : Byte) : (s.writeByte a b).reply = s.reply := rfl
@[simp] theorem writeByte_reg (a : Nat) (b : Byte) (r : Reg) : (s.writeByte a b).reg r = s.reg r := rfl
@[simp] theorem writeByte_pixel (a : Nat) (b : Byte) (n : Nat) : (s.writeByte a b).pixel n = s.pixel n := rfl

/-! ### setPixel -/

@[simp] theorem setPixel_v (k : Nat) (b : Byte) : (s.setPixel k b).v = s.v := rfl
@[simp] theorem setPixel_i (k : Nat) (b : Byte) : (s.setPixel k b).i = s.i := rfl
@[simp] theorem setPixel_pc (k : Nat) (b : Byte) : (s.setPixel k b).pc = s.pc := rfl
@[simp] theorem setPixel_sp (k : Nat) (b : Byte) : (s.setPixel k b).sp = s.sp := rfl
@[simp] theorem setPixel_stack (k : Nat) (b : Byte) : (s.setPixel k b).stack = s.stack := rfl
@[simp] theorem setPixel_dt (k : Nat) (b : Byte) : (s.setPixel k b).dt = s.dt := rfl
@[simp] theorem setPixel_st (k : Nat) (b : Byte) : (s.setPixel k b).st = s.st := rfl
@[simp] theorem setPixel_mem (k : Nat) (b : Byte) : (s.setPixel k b).mem = s.mem := rfl
@[simp] theorem setPixel_fb (k : Nat) (b : Byte) : (s.setPixel k b).fb = cellsWrite (fun _ => 0) s.fb k b := rfl
@[simp] theorem setPixel_keys (k : Nat) (b : Byte) : (s.setPixel k b).keys = s.keys := rfl
@[simp] theorem setPixel_redraw (k : Nat) (b : Byte) : (s.setPixel k b).redraw = s.redraw := rfl
@[simp] theorem setPixel_fault (k : Nat) (b : Byte) : (s.setPixel k b).fault = s.fault := rfl
@[simp] theorem setPixel_loaded (k : Nat) (b : Byte) : (s.setPixel k b).loaded = s.loaded := rfl
@[simp] theorem setPixel_cfg (k : Nat) (b : Byte) : (s.setPixel k b).cfg = s.cfg := rfl
@[simp] theorem setPixel_draws (k : Nat) (b : Byte) : (s.setPixel k b).draws = s.draws := rfl
@[simp] theorem setPixel_reply (k : Nat) (b : Byte) : (s.setPixel k b).reply = s.reply := rfl
@[simp] theorem setPixel_reg (k : Nat) (b : Byte) (r : Reg) : (s.setPixel k b).reg r = s.reg r := rfl
@[simp] theorem setPixel_readByte (k : Nat) (b : Byte) (n : Nat) : (s.setPixel k b).readByte n = s.readByte n := rfl

/-! ### clearPixels -/

@[simp] theorem clearPixels_v : s.clearPixels.v = s.v := rfl
@[simp] theorem clearPixels_i : s.clearPixels.i = s.i := rfl
@[simp] theorem clearPixels_pc : s.clearPixels.pc = s.pc := rfl
@[simp] theorem clearPixels_sp : s.clearPixels.sp = s.sp := rfl
@[simp] theorem clearPixels_stack : s.clearPixels.stack = s.stack := rfl
@[simp] theorem clearPixels_dt : s.clearPixels.dt = s.dt := rfl
@[simp] theorem clearPixels_st : s.clearPixels.st = s.st := rfl
@[simp] theorem clearPixels_mem : s.clearPixels.mem = s.mem := rfl
@[simp] theorem clearPixels_fb : s.clearPixels.fb = [] := rfl
@[simp] theorem clearPixels_keys : s.clearPixels.keys = s.keys := rfl
@[simp] theorem clearPixels_redraw : s.clearPixels.redraw = s.redraw := rfl
@[simp] theorem clearPixels_fault : s.clearPixels.fault = s.fault := rfl
@[simp] theorem clearPixels_loaded : s.clearPixels.loaded = s.loaded := rfl
@[simp] theorem clearPixels_cfg : s.clearPixels.cfg = s.cfg := rfl
@[simp] theorem clearPixels_draws : s.clearPixels.draws = s.draws := rfl
@[simp] theorem clearPixels_reply : s.clearPixels.reply = s.reply := rfl
@[simp] theorem clearPixels_reg  (r : Reg) : s.clearPixels.reg r = s.reg r := rfl
@[simp] theorem clearPixels_readByte  (n : Nat) : s.clearPixels.readByte n = s.readByte n := rfl

/-! ### pushPc -/

@[simp] theorem pushPc_v (k : Fin 16) : (s.pushPc k).v = s.v := rfl
@[simp] theorem pushPc_i (k : Fin 16) : (s.pushPc k).i = s.i := rfl
@[simp] theorem pushPc_pc (k : Fin 16) : (s.pushPc k).pc = s.pc := rfl
@[simp] theorem pushPc_sp (k : Fin 16) : (s.pushPc k).sp = k.succ := rfl
@[simp] theorem pushPc_stack (k : Fin 16) : (s.pushPc k).stack = s.stack.set k s.pc := rfl
@[simp] theorem pushPc_dt (k : Fin 16) : (s.pushPc k).dt = s.dt := rfl
@[simp] theorem pushPc_st (k : Fin 16) : (s.pushPc k).st = s.st := rfl
@[simp] theorem pushPc_mem (k : Fin 16) : (s.pushPc k).mem = s.mem := rfl
@[simp] theorem pushPc_fb (k : Fin 16) : (s.pushPc k).fb = s.fb := rfl
@[simp] theorem pushPc_keys (k : Fin 16) : (s.pushPc k).keys = s.keys := rfl
@[simp] theorem pushPc_redraw (k : Fin 16) : (s.pushPc k).redraw = s.redraw := rfl
@[simp] theorem pushPc_fault (k : Fin 16) : (s.pushPc k).fault = s.fault := rfl
@[simp] theorem pushPc_loaded (k : Fin 16) : (s.pushPc k).loaded = s.loaded := rfl
@[simp] theorem pushPc_cfg (k : Fin 16) : (s.pushPc k).cfg = s.cfg := rfl
@[simp] theorem pushPc_draws (k : Fin 16) : (s.pushPc k).draws = s.draws := rfl
@[simp] theorem pushPc_reply (k : Fin 16) : (s.pushPc k).reply = s.reply := rfl
@[simp] theorem pushPc_reg (k : Fin 16) (r : Reg) : (s.pushPc k).reg r = s.reg r := rfl
@[simp] theorem pushPc_readByte (k : Fin 16) (n : Nat) : (s.pushPc k).readByte n = s.readByte n := rfl
@[simp] theorem pushPc_pixel (k : Fin 16) (n : Nat) : (s.pushPc k).pixel n = s.pixel n := rfl

/-! ### popPc -/

@[simp] theorem popPc_v (k : Fin 16) : (s.popPc k).v = s.v := rfl
@[simp] theorem popPc_i (k : Fin 16) : (s.popPc k).i = s.i := rfl
@[simp] theorem popPc_pc (k : Fin 16) : (s.popPc k).pc = s.stack[k] := rfl
@[simp] theorem popPc_sp (k : Fin 16) : (s.popPc k).sp = k.castSucc := rfl
@[simp] theorem popPc_stack (k : Fin 16) : (s.popPc k).stack = s.stack := rfl
@[simp] theorem popPc_dt (k : Fin 16) : (s.popPc k).dt = s.dt := rfl
@[simp] theorem popPc_st (k : Fin 16) : (s.popPc k).st = s.st := rfl
@[simp] theorem popPc_mem (k : Fin 16) : (s.popPc k).mem = s.mem := rfl
@[simp] theorem popPc_fb (k : Fin 16) : (s.popPc k).fb = s.fb := rfl
@[simp] theorem popPc_keys (k : Fin 16) : (s.popPc k).keys = s.keys := rfl
@[simp] theorem popPc_redraw (k : Fin 16) : (s.popPc k).redraw = s.redraw := rfl
@[simp] theorem popPc_fault (k : Fin 16) : (s.popPc k).fault = s.fault := rfl
@[simp] theorem popPc_loaded (k : Fin 16) : (s.popPc k).loaded = s.loaded := rfl
@[simp] theorem popPc_cfg (k : Fin 16) : (s.popPc k).cfg = s.cfg := rfl
@[simp] theorem popPc_draws (k : Fin 16) : (s.popPc k).draws = s.draws := rfl
@[simp] theorem popPc_reply (k : Fin 16) : (s.popPc k).reply = s.reply := rfl
@[simp] theorem popPc_reg (k : Fin 16) (r : Reg) : (s.popPc k).reg r = s.reg r := rfl
@[simp] theorem popPc_readByte (k : Fin 16) (n : Nat) : (s.popPc k).readByte n = s.readByte n := rfl
@[simp] theorem popPc_pixel (k : Fin 16) (n : Nat) : (s.popPc k).pixel n = s.pixel n := rfl

/-! ### raiseAt -/

@[simp] theorem raiseAt_v (w : Word) (e : StepError) : (s.raiseAt w e).v = s.v := rfl
@[simp] theorem raiseAt_i (w : Word) (e : StepError) : (s.raiseAt w e).i = s.i := rfl
@[simp] theorem raiseAt_pc (w : Word) (e : StepError) : (s.raiseAt w e).pc = w := rfl
@[simp] theorem raiseAt_sp (w : Word) (e : StepError) : (s.raiseAt w e).sp = s.sp := rfl
@[simp] theorem raiseAt_stack (w : Word) (e : StepError) : (s.raiseAt w e).stack = s.stack := rfl
@[simp] theorem raiseAt_dt (w : Word) (e : StepError) : (s.raiseAt w e).dt = s.dt := rfl
@[simp] theorem raiseAt_st (w : Word) (e : StepError) : (s.raiseAt w e).st = s.st := rfl
@[simp] theorem raiseAt_mem (w : Word) (e : StepError) : (s.raiseAt w e).mem = s.mem := rfl
@[simp] theorem raiseAt_fb (w : Word) (e : StepError) : (s.raiseAt w e).fb = s.fb := rfl
@[simp] theorem raiseAt_keys (w : Word) (e : StepError) : (s.raiseAt w e).keys = s.keys := rfl
@[simp] theorem raiseAt_redraw (w : Word) (e : StepError) : (s.raiseAt w e).redraw = s.redraw := rfl
@[simp] theorem raiseAt_fault (w : Word) (e : StepError) : (s.raiseAt w e).fault = some e := rfl
@[simp] theorem raiseAt_loaded (w : Word) (e : StepError) : (s.raiseAt w e).loaded = s.loaded := rfl
@[simp] theorem raiseAt_cfg (w : Word) (e : StepError) : (s.raiseAt w e).cfg = s.cfg := rfl
@[simp] theorem raiseAt_draws (w : Word) (e : StepError) : (s.raiseAt w e).draws = s.draws := rfl
@[simp] theorem raiseAt_reply (w : Word) (e : StepError) : (s.raiseAt w e).reply = .error e := rfl
@[simp] theorem raiseAt_reg (w : Word) (e : StepError) (r : Reg) : (s.raiseAt w e).reg r = s.reg r := rfl
@[simp] theorem raiseAt_readByte (w : Word) (e : StepError) (n : Nat) : (s.raiseAt w e).readByte n = s.readByte n := rfl
@[simp] theorem raiseAt_pixel (w : Word) (e : StepError) (n : Nat) : (s.raiseAt w e).pixel n = s.pixel n := rfl

/-! ### latchedReturn -/

@[simp] theorem latchedReturn_v (e : StepError) : (s.latchedReturn e).v = s.v := rfl
@[simp] theorem latchedReturn_i (e : StepError) : (s.latchedReturn e).i = s.i := rfl
@[simp] theorem latchedReturn_pc (e : StepError) : (s.latchedReturn e).pc = s.pc := rfl
@[simp] theorem latchedReturn_sp (e : StepError) : (s.latchedReturn e).sp = s.sp := rfl
@[simp] theorem latchedReturn_stack (e : StepError) : (s.latchedReturn e).stack = s.stack := rfl
@[simp] theorem latchedReturn_dt (e : StepError) : (s.latchedReturn e).dt = s.dt := rfl
@[simp] theorem latchedReturn_st (e : StepError) : (s.latchedReturn e).st = s.st := rfl
@[simp] theorem latchedReturn_mem (e : StepError) : (s.latchedReturn e).mem = s.mem := rfl
@[simp] theorem latchedReturn_fb (e : StepError) : (s.latchedReturn e).fb = s.fb := rfl
@[simp] theorem latchedReturn_keys (e : StepError) : (s.latchedReturn e).keys = s.keys := rfl
@[simp] theorem latchedReturn_redraw (e : StepError) : (s.latchedReturn e).redraw = s.redraw := rfl
@[simp] theorem latchedReturn_fault (e : StepError) : (s.latchedReturn e).fault = s.fault := rfl
@[simp] theorem latchedReturn_loaded (e : StepError) : (s.latchedReturn e).loaded = s.loaded := rfl
@[simp] theorem latchedReturn_cfg (e : StepError) : (s.latchedReturn e).cfg = s.cfg := rfl
@[simp] theorem latchedReturn_draws (e : StepError) : (s.latchedReturn e).draws = s.draws := rfl
@[simp] theorem latchedReturn_reply (e : StepError) : (s.latchedReturn e).reply = .error e := rfl
@[simp] theorem latchedReturn_reg (e : StepError) (r : Reg) : (s.latchedReturn e).reg r = s.reg r := rfl
@[simp] theorem latchedReturn_readByte (e : StepError) (n : Nat) : (s.latchedReturn e).readByte n = s.readByte n := rfl
@[simp] theorem latchedReturn_pixel (e : StepError) (n : Nat) : (s.latchedReturn e).pixel n = s.pixel n := rfl

/-! ### awaitKey -/

@[simp] theorem awaitKey_v : s.awaitKey.v = s.v := rfl
@[simp] theorem awaitKey_i : s.awaitKey.i = s.i := rfl
@[simp] theorem awaitKey_pc : s.awaitKey.pc = s.ipc := rfl
@[simp] theorem awaitKey_sp : s.awaitKey.sp = s.sp := rfl
@[simp] theorem awaitKey_stack : s.awaitKey.stack = s.stack := rfl
@[simp] theorem awaitKey_dt : s.awaitKey.dt = s.dt := rfl
@[simp] theorem awaitKey_st : s.awaitKey.st = s.st := rfl
@[simp] theorem awaitKey_mem : s.awaitKey.mem = s.mem := rfl
@[simp] theorem awaitKey_fb : s.awaitKey.fb = s.fb := rfl
@[simp] theorem awaitKey_keys : s.awaitKey.keys = s.keys := rfl
@[simp] theorem awaitKey_redraw : s.awaitKey.redraw = s.redraw := rfl
@[simp] theorem awaitKey_fault : s.awaitKey.fault = s.fault := rfl
@[simp] theorem awaitKey_loaded : s.awaitKey.loaded = s.loaded := rfl
@[simp] theorem awaitKey_cfg : s.awaitKey.cfg = s.cfg := rfl
@[simp] theorem awaitKey_draws : s.awaitKey.draws = s.draws := rfl
@[simp] theorem awaitKey_reply : s.awaitKey.reply = .awaitingKey := rfl
@[simp] theorem awaitKey_reg  (r : Reg) : s.awaitKey.reg r = s.reg r := rfl
@[simp] theorem awaitKey_readByte  (n : Nat) : s.awaitKey.readByte n = s.readByte n := rfl
@[simp] theorem awaitKey_pixel  (n : Nat) : s.awaitKey.pixel n = s.pixel n := rfl

/-! ### fetched -/

@[simp] theorem fetched_v : s.fetched.v = s.v := rfl
@[simp] theorem fetched_i : s.fetched.i = s.i := rfl
@[simp] theorem fetched_pc : s.fetched.pc = s.pc + 2 := rfl
@[simp] theorem fetched_sp : s.fetched.sp = s.sp := rfl
@[simp] theorem fetched_stack : s.fetched.stack = s.stack := rfl
@[simp] theorem fetched_dt : s.fetched.dt = s.dt := rfl
@[simp] theorem fetched_st : s.fetched.st = s.st := rfl
@[simp] theorem fetched_mem : s.fetched.mem = s.mem := rfl
@[simp] theorem fetched_fb : s.fetched.fb = s.fb := rfl
@[simp] theorem fetched_keys : s.fetched.keys = s.keys := rfl
@[simp] theorem fetched_redraw : s.fetched.redraw = s.redraw := rfl
@[simp] theorem fetched_fault : s.fetched.fault = s.fault := rfl
@[simp] theorem fetched_loaded : s.fetched.loaded = s.loaded := rfl
@[simp] theorem fetched_cfg : s.fetched.cfg = s.cfg := rfl
@[simp] theorem fetched_draws : s.fetched.draws = s.draws := rfl
@[simp] theorem fetched_reply : s.fetched.reply = .ok := rfl
@[simp] theorem fetched_reg  (r : Reg) : s.fetched.reg r = s.reg r := rfl
@[simp] theorem fetched_readByte  (n : Nat) : s.fetched.readByte n = s.readByte n := rfl
@[simp] theorem fetched_pixel  (n : Nat) : s.fetched.pixel n = s.pixel n := rfl

/-! ### Registers read after a write -/

theorem reg_setReg (x r : Reg) (b : Byte) : (s.setReg x b).reg r = if r = x then b else s.reg r := by
  simp only [State.reg, State.setReg, Fin.getElem_fin, Vector.getElem_set]
  by_cases h : r = x
  · simp [h]
  · rw [if_neg h, if_neg]
    exact fun e => h (Fin.ext e.symm)

@[simp] theorem reg_setReg_same (x : Reg) (b : Byte) : (s.setReg x b).reg x = b := by simp [reg_setReg]

@[simp] theorem reg_setReg_other (x r : Reg) (b : Byte) (h : r ≠ x) : (s.setReg x b).reg r = s.reg r := by
  simp [reg_setReg, h]

/-- R79: with `x = VF` the result stays, else VF holds the flag. -/
theorem reg_setFlagged (x r : Reg) (f b : Byte) :
    (s.setFlagged x f b).reg r = if r = x then b else if r = VF then f else s.reg r := by
  simp only [State.setFlagged, reg_setReg]

end Sys2Proof.Machine.State
end

