-- ==== Sys2Proof/Laws/Ops.lean ====
section
/-! SUPPORT. One lemma per shared operation that says once what it can do: blocks of bytes, the bound check, the stack
entries, key selection, pixels and sprites, raising an error. -/

namespace Sys2Proof.Machine

variable (s : State)

/-! ### Memory -/

theorem State.readByte_writeByte_other (a c : Nat) (b : Byte) (h : c ≠ a) :
    (s.writeByte a b).readByte c = s.readByte c :=
  cellsRead_cellsWrite_other _ s.mem a c b h

theorem State.readByte_writeByte_same (a : Nat) (b : Byte) (h : Memory.wf s.cfg s.mem) :
    (s.writeByte a b).readByte a = b :=
  cellsRead_cellsWrite_same _ s.mem a b h.1

/-- A write below 4096 keeps memory canonical. -/
theorem State.writeByte_wf (a : Nat) (b : Byte) (ha : a < 4096) (h : Memory.wf s.cfg s.mem) :
    Memory.wf (s.writeByte a b).cfg (s.writeByte a b).mem :=
  cellsWrite_wf _ memBytes s.mem a b ha h

/-- A block write changes memory alone. -/
theorem State.writeBytes_eq (a : Nat) (l : List Byte) : s.writeBytes a l = { s with mem := (s.writeBytes a l).mem } := by
  induction l generalizing s a with
  | nil => rfl
  | cons b rest ih =>
    simp only [State.writeBytes]
    rw [ih]
    rfl

/-- A block write leaves every address outside the block alone. -/
theorem State.readByte_writeBytes_other (a c : Nat) (l : List Byte) (h : c < a ∨ a + l.length ≤ c) :
    (s.writeBytes a l).readByte c = s.readByte c := by
  induction l generalizing s a with
  | nil => rfl
  | cons b rest ih =>
    simp only [List.length_cons] at h
    rw [State.writeBytes, ih (s.writeByte a b) (a + 1) (by omega), s.readByte_writeByte_other a c b (by omega)]

/-- A block write below 4096 keeps memory canonical. -/
theorem State.writeBytes_wf (a : Nat) (l : List Byte) (ha : a + l.length ≤ 4096) (h : Memory.wf s.cfg s.mem) :
    Memory.wf s.cfg (s.writeBytes a l).mem := by
  induction l generalizing s a with
  | nil => exact h
  | cons b rest ih =>
    simp only [List.length_cons] at ha
    exact ih (s.writeByte a b) (a + 1) (by omega) (s.writeByte_wf a b (by omega) h)

/-- A block written below 4096 is read back, byte by byte. -/
theorem State.readByte_writeBytes_same (a j : Nat) (b : Byte) (l : List Byte) (ha : a + l.length ≤ 4096)
    (h : Memory.wf s.cfg s.mem) (hj : l[j]? = some b) : (s.writeBytes a l).readByte (a + j) = b := by
  induction l generalizing s a j with
  | nil => simp at hj
  | cons c rest ih =>
    simp only [List.length_cons] at ha
    rw [State.writeBytes]
    cases j with
    | zero =>
      rw [State.readByte_writeBytes_other _ _ _ _ (by omega)]
      simp only [List.getElem?_cons_zero, Option.some.injEq] at hj
      exact hj ▸ s.readByte_writeByte_same a c h
    | succ j =>
      have := ih (s.writeByte a c) (a + 1) j (by omega) (s.writeByte_wf a c (by omega) h) (by simpa using hj)
      rwa [Nat.add_assoc, Nat.add_comm 1 j] at this

/-! ### The bound check (R33 to R35) -/

/-- No offending address when the block ends below 0x1000 (or is empty), else the first above 0xFFF. -/
theorem firstBadAddress_eq (base len : Nat) :
    firstBadAddress base len = if len = 0 ∨ base + len ≤ 0x1000 then none else some (max base 0x1000) := by
  unfold firstBadAddress
  induction len generalizing base with
  | zero => simp
  | succ n ih =>
    rw [List.range'_succ, List.find?_cons]
    by_cases hb : 0xFFF < base
    · simp only [hb, decide_true]
      rw [if_neg (by omega), Nat.max_eq_left (by omega)]
    · simp only [hb, decide_false]
      rw [ih]
      by_cases hn : n = 0
      · subst hn
        simp only [true_or, ↓reduceIte]
        rw [if_pos (by omega)]
      · by_cases hle : base + (n + 1) ≤ 0x1000
        · rw [if_pos (by omega), if_pos (by omega)]
        · rw [if_neg (by omega), if_neg (by omega), Nat.max_eq_right (by omega), Nat.max_eq_right (by omega)]

/-! ### The stack (R15) -/

theorem State.freeEntry_of_lt (k : Fin 16) (h : s.sp.val = k.val) : s.freeEntry = some k := by
  unfold State.freeEntry
  rw [dif_pos (by omega)]
  exact congrArg some (Fin.ext h)

theorem State.freeEntry_full (h : s.sp.val = 16) : s.freeEntry = none := by
  unfold State.freeEntry
  rw [dif_neg (by omega)]

theorem State.topEntry_of_pos (k : Fin 16) (h : s.sp.val = k.val + 1) : s.topEntry = some k := by
  unfold State.topEntry
  rw [dif_neg (by omega)]
  exact congrArg some (Fin.ext (by simp; omega))

theorem State.topEntry_empty (h : s.sp.val = 0) : s.topEntry = none := by
  unfold State.topEntry
  rw [dif_pos h]

/-! ### Keys -/

theorem keyIndex_eq (b : Byte) (k : Fin 16) (h : b.toNat = k.val) : keyIndex b = some k := by
  unfold keyIndex
  rw [dif_pos (by omega)]
  exact congrArg some (Fin.ext h)

theorem keyIndex_none (b : Byte) (h : 15 < b.toNat) : keyIndex b = none := by
  unfold keyIndex
  rw [dif_neg (by omega)]

theorem mem_pressedKeys (keys : Vector Bool 16) (k : Fin 16) : k ∈ pressedKeys keys ↔ keys[k] = true := by
  simp [pressedKeys, List.mem_finRange]

/-- The key selected is down (R123). -/
theorem selectKey_pressed (keys : Vector Bool 16) (k : Fin 16) (h : selectKey keys = some k) : keys[k] = true := by
  rw [← mem_pressedKeys]
  unfold selectKey at h
  split at h
  · simp at h
  · next e => simp_all
  · next a b rest e =>
    simp only [Option.some.injEq] at h
    rw [e, ← h, List.getD_eq_getElem?_getD]
    have hlt : Config.keyPick keys % (rest.length + 2) < (a :: b :: rest).length := by
      simp only [List.length_cons]
      exact Nat.mod_lt _ (by omega)
    rw [List.getElem?_eq_getElem hlt]
    exact List.getElem_mem hlt

/-- No key is selected exactly when none is down (R123). -/
theorem selectKey_none (keys : Vector Bool 16) : selectKey keys = none ↔ ∀ k : Fin 16, keys[k] = false := by
  have hnil : selectKey keys = none ↔ pressedKeys keys = [] := by
    unfold selectKey
    split <;> simp_all
  rw [hnil, List.eq_nil_iff_forall_not_mem]
  simp only [mem_pressedKeys, Bool.not_eq_true]

/-! ### Pixels and sprites (R110) -/

theorem State.pixel_setPixel_other (k j : Nat) (b : Byte) (h : j ≠ k) : (s.setPixel k b).pixel j = s.pixel j :=
  cellsRead_cellsWrite_other _ s.fb k j b h

theorem State.pixel_setPixel_same (k : Nat) (b : Byte) (h : FrameBuffer.wf s.fb) : (s.setPixel k b).pixel k = b :=
  cellsRead_cellsWrite_same _ s.fb k b h.1

/-- Drawing one bit changes VF and the frame buffer alone. -/
theorem State.flipPixel_eq (k : Nat) : s.flipPixel k = { s with v := (s.flipPixel k).v, fb := (s.flipPixel k).fb } := by
  unfold State.flipPixel
  split <;> rfl

theorem State.flipPixel_fb (k : Nat) : (s.flipPixel k).fb = (s.setPixel k (1 - s.pixel k)).fb := by
  unfold State.flipPixel
  split <;> rfl

theorem State.flipPixel_reg (k : Nat) (r : Reg) :
    (s.flipPixel k).reg r = if s.pixel k = 1 ∧ r = VF then 1 else s.reg r := by
  unfold State.flipPixel
  split <;> simp_all [State.reg_setReg]

theorem State.pixel_flipPixel (k j : Nat) (h : FrameBuffer.wf s.fb) :
    (s.flipPixel k).pixel j = if j = k then 1 - s.pixel k else s.pixel j := by
  have hp : (s.flipPixel k).pixel j = (s.setPixel k (1 - s.pixel k)).pixel j := by
    simp only [State.pixel, State.flipPixel_fb]
  rw [hp]
  split
  · next e => subst e; exact s.pixel_setPixel_same _ _ h
  · next e => exact s.pixel_setPixel_other _ _ _ e

theorem State.flipPixel_wf (k : Nat) (hk : k < 2048) (h : FrameBuffer.wf s.fb) : FrameBuffer.wf (s.flipPixel k).fb := by
  rw [State.flipPixel_fb]
  exact cellsWrite_wf _ fbCells s.fb k _ hk h

/-- Drawing changes VF and the frame buffer alone. -/
theorem State.foldl_flipPixel_eq (l : List Nat) :
    l.foldl State.flipPixel s =
      { s with v := (l.foldl State.flipPixel s).v, fb := (l.foldl State.flipPixel s).fb } := by
  induction l generalizing s with
  | nil => rfl
  | cons k rest ih =>
    simp only [List.foldl_cons]
    rw [ih]
    conv => rhs; rw [State.flipPixel_eq]
    rw [State.flipPixel_eq]

theorem State.foldl_flipPixel_wf (l : List Nat) (hl : ∀ k ∈ l, k < 2048) (h : FrameBuffer.wf s.fb) :
    FrameBuffer.wf (l.foldl State.flipPixel s).fb := by
  induction l generalizing s with
  | nil => exact h
  | cons k rest ih =>
    exact ih (s.flipPixel k) (fun j hj => hl j (by simp [hj])) (s.flipPixel_wf k (hl k (by simp)) h)

/-- Distinct cells drawn one after the other: each is flipped once, the others stay. -/
theorem State.pixel_foldl_flipPixel (l : List Nat) (hn : l.Nodup) (hl : ∀ k ∈ l, k < 2048) (h : FrameBuffer.wf s.fb)
    (j : Nat) : (l.foldl State.flipPixel s).pixel j = if j ∈ l then 1 - s.pixel j else s.pixel j := by
  induction l generalizing s with
  | nil => simp
  | cons k rest ih =>
    have hk := List.nodup_cons.1 hn
    rw [List.foldl_cons, ih (s.flipPixel k) hk.2 (fun j hj => hl j (by simp [hj])) (s.flipPixel_wf k (hl k (by simp)) h),
      s.pixel_flipPixel k j h]
    by_cases e : j = k
    · subst e
      simp [hk.1]
    · simp [e]

/-- VF after drawing distinct cells: 1 when one of them was lit, else as it was; every other register stays. -/
theorem State.reg_foldl_flipPixel (l : List Nat) (hn : l.Nodup) (hl : ∀ k ∈ l, k < 2048) (h : FrameBuffer.wf s.fb)
    (r : Reg) : (l.foldl State.flipPixel s).reg r = if r = VF ∧ ∃ k ∈ l, s.pixel k = 1 then 1 else s.reg r := by
  induction l generalizing s with
  | nil => simp
  | cons k rest ih =>
    have hk := List.nodup_cons.1 hn
    rw [List.foldl_cons, ih (s.flipPixel k) hk.2 (fun j hj => hl j (by simp [hj])) (s.flipPixel_wf k (hl k (by simp)) h),
      s.flipPixel_reg]
    have hex : (∃ j ∈ rest, (s.flipPixel k).pixel j = 1) ↔ ∃ j ∈ rest, s.pixel j = 1 := by
      refine exists_congr fun j => and_congr_right fun hj => ?_
      rw [s.pixel_flipPixel k j h, if_neg]
      exact fun e => hk.1 (e ▸ hj)
    simp only [hex, List.mem_cons, exists_eq_or_imp]
    by_cases hr : r = VF <;> by_cases hp : s.pixel k = 1#8 <;> simp [hr, hp]

theorem mem_rowCells (row : Byte) (x0 y k : Nat) :
    k ∈ rowCells row x0 y ↔ ∃ c, c < 8 ∧ row.getLsbD (7 - c) = true ∧ k = cellIndex (x0 + c) y := by
  simp only [rowCells, List.mem_filterMap, List.mem_range]
  refine exists_congr fun c => and_congr_right fun _ => ?_
  by_cases h : row.getLsbD (7 - c) = true <;> simp [h, eq_comm]

/-- The cells of a sprite are those its set bits meet (R110, R111). -/
theorem State.mem_spriteCells (x0 y0 n k : Nat) :
    k ∈ s.spriteCells x0 y0 n ↔ ∃ r c, r < n ∧ c < 8 ∧ (s.readByte (s.i.toNat + r)).getLsbD (7 - c) = true ∧
      k = ((x0 + c) % 64 + (y0 + r) % 32 * 64) % 2048 := by
  simp only [State.spriteCells, List.mem_flatMap, List.mem_range, mem_rowCells, cellIndex]
  constructor
  · rintro ⟨r, hr, c, hc, hb, e⟩
    exact ⟨r, c, hr, hc, hb, e⟩
  · rintro ⟨r, c, hr, hc, hb, e⟩
    exact ⟨r, hr, c, hc, hb, e⟩

theorem State.spriteCells_lt (x0 y0 n k : Nat) (h : k ∈ s.spriteCells x0 y0 n) : k < 2048 := by
  obtain ⟨r, c, -, -, -, rfl⟩ := (s.mem_spriteCells x0 y0 n k).1 h
  omega

theorem rowCells_nodup (row : Byte) (x0 y : Nat) : (rowCells row x0 y).Nodup := by
  simp only [List.Nodup, rowCells, List.pairwise_filterMap]
  rw [List.pairwise_iff_getElem]
  intro i j hi hj hij b hb b' hb'
  simp only [List.length_range] at hi hj
  simp only [List.getElem_range, cellIndex] at hb hb'
  split at hb <;> split at hb' <;> simp only [Option.some.injEq, reduceCtorEq] at hb hb'
  omega

/-- Two set bits of one sprite never land on one cell (R110): 8 columns and at most 16 rows. -/
theorem State.spriteCells_nodup (x0 y0 n : Nat) (hn : n ≤ 16) : (s.spriteCells x0 y0 n).Nodup := by
  simp only [List.Nodup, State.spriteCells, List.pairwise_flatMap]
  refine ⟨fun r _ => rowCells_nodup _ _ _, ?_⟩
  rw [List.pairwise_iff_getElem]
  intro i j hi hj hij k hk k' hk'
  simp only [List.length_range] at hi hj
  simp only [List.getElem_range, mem_rowCells, cellIndex] at hk hk'
  obtain ⟨c, hc, -, rfl⟩ := hk
  obtain ⟨c', hc', -, rfl⟩ := hk'
  omega

/-! ### Raising (R151) -/

/-- An error raised after the fetch leaves the state before the step with the latch set. -/
theorem State.raise_fetched (e : StepError) :
    s.fetched.raise e = { s with fault := some e, reply := .error e } := by
  simp [State.raise, State.raiseAt, State.ipc, State.fetched, BitVec.add_sub_cancel]

theorem State.ipc_fetched : s.fetched.ipc = s.pc := by simp [State.ipc, BitVec.add_sub_cancel]

end Sys2Proof.Machine
end

