-- ==== Sys2Proof/Laws/Updates.lean ====
section
/-! SUPPORT. What each compound update leaves alone: one lemma a field, so that no later proof unfolds the update. -/

namespace Sys2Proof.Machine.State

variable (s : State)

/-! ### setFlagged -/

@[simp] theorem setFlagged_i (x : Reg) (f b : Byte) : (s.setFlagged x f b).i = s.i := rfl
@[simp] theorem setFlagged_pc (x : Reg) (f b : Byte) : (s.setFlagged x f b).pc = s.pc := rfl
@[simp] theorem setFlagged_sp (x : Reg) (f b : Byte) : (s.setFlagged x f b).sp = s.sp := rfl
@[simp] theorem setFlagged_stack (x : Reg) (f b : Byte) : (s.setFlagged x f b).stack = s.stack := rfl
@[simp] theorem setFlagged_dt (x : Reg) (f b : Byte) : (s.setFlagged x f b).dt = s.dt := rfl
@[simp] theorem setFlagged_st (x : Reg) (f b : Byte) : (s.setFlagged x f b).st = s.st := rfl
@[simp] theorem setFlagged_mem (x : Reg) (f b : Byte) : (s.setFlagged x f b).mem = s.mem := rfl
@[simp] theorem setFlagged_fb (x : Reg) (f b : Byte) : (s.setFlagged x f b).fb = s.fb := rfl
@[simp] theorem setFlagged_keys (x : Reg) (f b : Byte) : (s.setFlagged x f b).keys = s.keys := rfl
@[simp] theorem setFlagged_redraw (x : Reg) (f b : Byte) : (s.setFlagged x f b).redraw = s.redraw := rfl
@[simp] theorem setFlagged_fault (x : Reg) (f b : Byte) : (s.setFlagged x f b).fault = s.fault := rfl
@[simp] theorem setFlagged_loaded (x : Reg) (f b : Byte) : (s.setFlagged x f b).loaded = s.loaded := rfl
@[simp] theorem setFlagged_cfg (x : Reg) (f b : Byte) : (s.setFlagged x f b).cfg = s.cfg := rfl
@[simp] theorem setFlagged_draws (x : Reg) (f b : Byte) : (s.setFlagged x f b).draws = s.draws := rfl
@[simp] theorem setFlagged_reply (x : Reg) (f b : Byte) : (s.setFlagged x f b).reply = s.reply := rfl

/-! ### skipIf -/

@[simp] theorem skipIf_v (c : Bool) : (s.skipIf c).v = s.v := by unfold State.skipIf; split <;> rfl
@[simp] theorem skipIf_i (c : Bool) : (s.skipIf c).i = s.i := by unfold State.skipIf; split <;> rfl
@[simp] theorem skipIf_sp (c : Bool) : (s.skipIf c).sp = s.sp := by unfold State.skipIf; split <;> rfl
@[simp] theorem skipIf_stack (c : Bool) : (s.skipIf c).stack = s.stack := by unfold State.skipIf; split <;> rfl
@[simp] theorem skipIf_dt (c : Bool) : (s.skipIf c).dt = s.dt := by unfold State.skipIf; split <;> rfl
@[simp] theorem skipIf_st (c : Bool) : (s.skipIf c).st = s.st := by unfold State.skipIf; split <;> rfl
@[simp] theorem skipIf_mem (c : Bool) : (s.skipIf c).mem = s.mem := by unfold State.skipIf; split <;> rfl
@[simp] theorem skipIf_fb (c : Bool) : (s.skipIf c).fb = s.fb := by unfold State.skipIf; split <;> rfl
@[simp] theorem skipIf_keys (c : Bool) : (s.skipIf c).keys = s.keys := by unfold State.skipIf; split <;> rfl
@[simp] theorem skipIf_redraw (c : Bool) : (s.skipIf c).redraw = s.redraw := by unfold State.skipIf; split <;> rfl
@[simp] theorem skipIf_fault (c : Bool) : (s.skipIf c).fault = s.fault := by unfold State.skipIf; split <;> rfl
@[simp] theorem skipIf_loaded (c : Bool) : (s.skipIf c).loaded = s.loaded := by unfold State.skipIf; split <;> rfl
@[simp] theorem skipIf_cfg (c : Bool) : (s.skipIf c).cfg = s.cfg := by unfold State.skipIf; split <;> rfl
@[simp] theorem skipIf_draws (c : Bool) : (s.skipIf c).draws = s.draws := by unfold State.skipIf; split <;> rfl
@[simp] theorem skipIf_reply (c : Bool) : (s.skipIf c).reply = s.reply := by unfold State.skipIf; split <;> rfl

/-! ### writeBytes -/

@[simp] theorem writeBytes_v (a : Nat) (l : List Byte) : (s.writeBytes a l).v = s.v := by rw [State.writeBytes_eq]
@[simp] theorem writeBytes_i (a : Nat) (l : List Byte) : (s.writeBytes a l).i = s.i := by rw [State.writeBytes_eq]
@[simp] theorem writeBytes_pc (a : Nat) (l : List Byte) : (s.writeBytes a l).pc = s.pc := by rw [State.writeBytes_eq]
@[simp] theorem writeBytes_sp (a : Nat) (l : List Byte) : (s.writeBytes a l).sp = s.sp := by rw [State.writeBytes_eq]
@[simp] theorem writeBytes_stack (a : Nat) (l : List Byte) : (s.writeBytes a l).stack = s.stack := by rw [State.writeBytes_eq]
@[simp] theorem writeBytes_dt (a : Nat) (l : List Byte) : (s.writeBytes a l).dt = s.dt := by rw [State.writeBytes_eq]
@[simp] theorem writeBytes_st (a : Nat) (l : List Byte) : (s.writeBytes a l).st = s.st := by rw [State.writeBytes_eq]
@[simp] theorem writeBytes_fb (a : Nat) (l : List Byte) : (s.writeBytes a l).fb = s.fb := by rw [State.writeBytes_eq]
@[simp] theorem writeBytes_keys (a : Nat) (l : List Byte) : (s.writeBytes a l).keys = s.keys := by rw [State.writeBytes_eq]
@[simp] theorem writeBytes_redraw (a : Nat) (l : List Byte) : (s.writeBytes a l).redraw = s.redraw := by rw [State.writeBytes_eq]
@[simp] theorem writeBytes_fault (a : Nat) (l : List Byte) : (s.writeBytes a l).fault = s.fault := by rw [State.writeBytes_eq]
@[simp] theorem writeBytes_loaded (a : Nat) (l : List Byte) : (s.writeBytes a l).loaded = s.loaded := by rw [State.writeBytes_eq]
@[simp] theorem writeBytes_cfg (a : Nat) (l : List Byte) : (s.writeBytes a l).cfg = s.cfg := by rw [State.writeBytes_eq]
@[simp] theorem writeBytes_draws (a : Nat) (l : List Byte) : (s.writeBytes a l).draws = s.draws := by rw [State.writeBytes_eq]
@[simp] theorem writeBytes_reply (a : Nat) (l : List Byte) : (s.writeBytes a l).reply = s.reply := by rw [State.writeBytes_eq]

/-! ### drawSprite -/

@[simp] theorem drawSprite_i (x y n : Nat) : (s.drawSprite x y n).i = s.i := by
  rw [State.drawSprite, State.foldl_flipPixel_eq]; rfl
@[simp] theorem drawSprite_pc (x y n : Nat) : (s.drawSprite x y n).pc = s.pc := by
  rw [State.drawSprite, State.foldl_flipPixel_eq]; rfl
@[simp] theorem drawSprite_sp (x y n : Nat) : (s.drawSprite x y n).sp = s.sp := by
  rw [State.drawSprite, State.foldl_flipPixel_eq]; rfl
@[simp] theorem drawSprite_stack (x y n : Nat) : (s.drawSprite x y n).stack = s.stack := by
  rw [State.drawSprite, State.foldl_flipPixel_eq]; rfl
@[simp] theorem drawSprite_dt (x y n : Nat) : (s.drawSprite x y n).dt = s.dt := by
  rw [State.drawSprite, State.foldl_flipPixel_eq]; rfl
@[simp] theorem drawSprite_st (x y n : Nat) : (s.drawSprite x y n).st = s.st := by
  rw [State.drawSprite, State.foldl_flipPixel_eq]; rfl
@[simp] theorem drawSprite_mem (x y n : Nat) : (s.drawSprite x y n).mem = s.mem := by
  rw [State.drawSprite, State.foldl_flipPixel_eq]; rfl
@[simp] theorem drawSprite_keys (x y n : Nat) : (s.drawSprite x y n).keys = s.keys := by
  rw [State.drawSprite, State.foldl_flipPixel_eq]; rfl
@[simp] theorem drawSprite_fault (x y n : Nat) : (s.drawSprite x y n).fault = s.fault := by
  rw [State.drawSprite, State.foldl_flipPixel_eq]; rfl
@[simp] theorem drawSprite_loaded (x y n : Nat) : (s.drawSprite x y n).loaded = s.loaded := by
  rw [State.drawSprite, State.foldl_flipPixel_eq]; rfl
@[simp] theorem drawSprite_cfg (x y n : Nat) : (s.drawSprite x y n).cfg = s.cfg := by
  rw [State.drawSprite, State.foldl_flipPixel_eq]; rfl
@[simp] theorem drawSprite_draws (x y n : Nat) : (s.drawSprite x y n).draws = s.draws := by
  rw [State.drawSprite, State.foldl_flipPixel_eq]; rfl
@[simp] theorem drawSprite_reply (x y n : Nat) : (s.drawSprite x y n).reply = s.reply := by
  rw [State.drawSprite, State.foldl_flipPixel_eq]; rfl

/-! ### loadBlock -/

@[simp] theorem loadBlock_i (x : Reg) : (s.loadBlock x).i = s.i := by simp only [State.loadBlock]
@[simp] theorem loadBlock_pc (x : Reg) : (s.loadBlock x).pc = s.pc := by simp only [State.loadBlock]
@[simp] theorem loadBlock_sp (x : Reg) : (s.loadBlock x).sp = s.sp := by simp only [State.loadBlock]
@[simp] theorem loadBlock_stack (x : Reg) : (s.loadBlock x).stack = s.stack := by simp only [State.loadBlock]
@[simp] theorem loadBlock_dt (x : Reg) : (s.loadBlock x).dt = s.dt := by simp only [State.loadBlock]
@[simp] theorem loadBlock_st (x : Reg) : (s.loadBlock x).st = s.st := by simp only [State.loadBlock]
@[simp] theorem loadBlock_mem (x : Reg) : (s.loadBlock x).mem = s.mem := by simp only [State.loadBlock]
@[simp] theorem loadBlock_fb (x : Reg) : (s.loadBlock x).fb = s.fb := by simp only [State.loadBlock]
@[simp] theorem loadBlock_keys (x : Reg) : (s.loadBlock x).keys = s.keys := by simp only [State.loadBlock]
@[simp] theorem loadBlock_redraw (x : Reg) : (s.loadBlock x).redraw = s.redraw := by simp only [State.loadBlock]
@[simp] theorem loadBlock_fault (x : Reg) : (s.loadBlock x).fault = s.fault := by simp only [State.loadBlock]
@[simp] theorem loadBlock_loaded (x : Reg) : (s.loadBlock x).loaded = s.loaded := by simp only [State.loadBlock]
@[simp] theorem loadBlock_cfg (x : Reg) : (s.loadBlock x).cfg = s.cfg := by simp only [State.loadBlock]
@[simp] theorem loadBlock_draws (x : Reg) : (s.loadBlock x).draws = s.draws := by simp only [State.loadBlock]
@[simp] theorem loadBlock_reply (x : Reg) : (s.loadBlock x).reply = s.reply := by simp only [State.loadBlock]

/-! ### raise -/

@[simp] theorem raise_v (e : StepError) : (s.raise e).v = s.v := rfl
@[simp] theorem raise_i (e : StepError) : (s.raise e).i = s.i := rfl
@[simp] theorem raise_sp (e : StepError) : (s.raise e).sp = s.sp := rfl
@[simp] theorem raise_stack (e : StepError) : (s.raise e).stack = s.stack := rfl
@[simp] theorem raise_dt (e : StepError) : (s.raise e).dt = s.dt := rfl
@[simp] theorem raise_st (e : StepError) : (s.raise e).st = s.st := rfl
@[simp] theorem raise_mem (e : StepError) : (s.raise e).mem = s.mem := rfl
@[simp] theorem raise_fb (e : StepError) : (s.raise e).fb = s.fb := rfl
@[simp] theorem raise_keys (e : StepError) : (s.raise e).keys = s.keys := rfl
@[simp] theorem raise_redraw (e : StepError) : (s.raise e).redraw = s.redraw := rfl
@[simp] theorem raise_loaded (e : StepError) : (s.raise e).loaded = s.loaded := rfl
@[simp] theorem raise_cfg (e : StepError) : (s.raise e).cfg = s.cfg := rfl
@[simp] theorem raise_draws (e : StepError) : (s.raise e).draws = s.draws := rfl

/-! ### What they change -/

@[simp] theorem raise_pc (e : StepError) : (s.raise e).pc = s.pc - 2 := rfl
@[simp] theorem raise_fault (e : StepError) : (s.raise e).fault = some e := rfl
@[simp] theorem raise_reply (e : StepError) : (s.raise e).reply = .error e := rfl
@[simp] theorem drawSprite_redraw (x y n : Nat) : (s.drawSprite x y n).redraw = true := rfl

theorem skipIf_pc (c : Bool) : (s.skipIf c).pc = if c then s.pc + 2 else s.pc := by unfold State.skipIf; split <;> rfl

theorem reg_loadBlock (x r : Reg) :
    (s.loadBlock x).reg r = if r ≤ x then s.readByte (s.i.toNat + r.val) else s.reg r := by
  simp [State.reg, State.loadBlock]

end Sys2Proof.Machine.State
end

