-- ==== Sys2Proof/Laws/Frames.lean ====
section
/-! SUPPORT. The frames of the shared updates, in the terms of Safety.lean, and what a drawn sprite leaves. -/

namespace Sys2Proof.Machine

variable (s : State)

theorem setReg_changes (x : Reg) (b : Byte) : ChangesOnly (fun p => p = .reg x) s (s.setReg x b) := by
  intro p hp
  cases p <;> simp at hp <;> simp [Part.Same, hp]

theorem setFlagged_changes (x : Reg) (f b : Byte) :
    ChangesOnly (fun p => p = .reg x ∨ p = .reg VF) s (s.setFlagged x f b) := by
  intro p hp
  cases p <;> simp at hp <;> simp [Part.Same, State.setFlagged, hp]

theorem skipIf_changes (c : Bool) : ChangesOnly (fun p => p = .pc) s (s.skipIf c) := by
  intro p hp
  cases p <;> simp at hp <;> simp [Part.Same, State.reg, State.readByte, State.pixel]

/-- A block write changes the bytes of the block alone. -/
theorem writeBytes_changes (a : Nat) (l : List Byte) (may : Part → Prop)
    (hm : ∀ j, j < l.length → may (.byte (a + j))) : ChangesOnly may s (s.writeBytes a l) := by
  intro p hp
  cases p
  case byte c =>
    refine s.readByte_writeBytes_other a c l (Classical.byContradiction fun h => hp ?_)
    have := hm (c - a) (by omega)
    rwa [show a + (c - a) = c by omega] at this
  all_goals simp [Part.Same, State.reg, State.pixel]

theorem spriteMeets_iff (x y : Reg) (n k : Nat) :
    s.SpriteMeets x y n k ↔ k ∈ s.spriteCells (s.reg x).toNat (s.reg y).toNat n := by
  rw [State.mem_spriteCells]
  rfl

/-- A drawn sprite flips its cells, each once (R110). -/
theorem pixel_drawSprite (x y n : Nat) (hn : n ≤ 16) (h : FrameBuffer.wf s.fb) (k : Nat) :
    (s.drawSprite x y n).pixel k = if k ∈ s.spriteCells x y n then 1 - s.pixel k else s.pixel k :=
  (s.setReg VF 0).pixel_foldl_flipPixel _ (s.spriteCells_nodup x y n hn) (fun j hj => s.spriteCells_lt _ _ _ j hj) h k

/-- A drawn sprite leaves the collision in VF and every other register alone (R110). -/
theorem reg_drawSprite (x y n : Nat) (hn : n ≤ 16) (h : FrameBuffer.wf s.fb) (r : Reg) :
    (s.drawSprite x y n).reg r =
      if r = VF ∧ ∃ k ∈ s.spriteCells x y n, s.pixel k = 1 then 1 else if r = VF then 0 else s.reg r := by
  have hr := (s.setReg VF 0).reg_foldl_flipPixel _ (s.spriteCells_nodup x y n hn)
    (fun j hj => s.spriteCells_lt _ _ _ j hj) h r
  rw [State.reg_setReg] at hr
  exact hr

end Sys2Proof.Machine
end

