-- ==== Sys2Proof/Laws/PerInstr.lean ====
section
/-! SUPPORT. The per-instruction family WordShape: filling a row's pattern with the operand fields gives a number that fits
the 16-bit word, so encoding cuts nothing off (R45, R46, R47). -/

namespace Sys2Proof.Laws.WordShape

/-- The word of the instruction is its row's pattern with the fields filled in, not cut. -/
def Statement (i : Instr) : Prop := (encode i).toNat = encodeNat i

theorem of_lt (i : Instr) (h : encodeNat i < 0x10000) : Statement i := by
  simp only [Statement, encode, BitVec.toNat_ofNat]
  exact Nat.mod_eq_of_lt h

theorem wordFI_lt (op : Nat) (h : op < 16) (x : Reg) (nn : Byte) : wordFI op x nn < 0x10000 := by
  unfold wordFI
  omega

theorem wordFR_lt (op f : Nat) (h : op < 16) (hf : f < 16) (x y : Reg) : wordFR op x y f < 0x10000 := by
  unfold wordFR
  omega

theorem wordFX_lt (op f : Nat) (h : op < 16) (hf : f < 256) (x : Reg) : wordFX op x f < 0x10000 := by
  unfold wordFX
  omega

theorem cls : Statement .cls := of_lt _ (by decide)
theorem ret : Statement .ret := of_lt _ (by decide)
theorem jp (nnn : Addr12) : Statement (.jp nnn) := of_lt _ (by simp only [encodeNat]; omega)
theorem call (nnn : Addr12) : Statement (.call nnn) := of_lt _ (by simp only [encodeNat]; omega)
theorem seImm (x : Reg) (nn : Byte) : Statement (.seImm x nn) := of_lt _ (wordFI_lt _ (by decide) x nn)
theorem sneImm (x : Reg) (nn : Byte) : Statement (.sneImm x nn) := of_lt _ (wordFI_lt _ (by decide) x nn)
theorem seReg (x y : Reg) : Statement (.seReg x y) := of_lt _ (wordFR_lt _ _ (by decide) (by decide) x y)
theorem ldImm (x : Reg) (nn : Byte) : Statement (.ldImm x nn) := of_lt _ (wordFI_lt _ (by decide) x nn)
theorem addImm (x : Reg) (nn : Byte) : Statement (.addImm x nn) := of_lt _ (wordFI_lt _ (by decide) x nn)
theorem ldReg (x y : Reg) : Statement (.ldReg x y) := of_lt _ (wordFR_lt _ _ (by decide) (by decide) x y)
theorem orReg (x y : Reg) : Statement (.orReg x y) := of_lt _ (wordFR_lt _ _ (by decide) (by decide) x y)
theorem andReg (x y : Reg) : Statement (.andReg x y) := of_lt _ (wordFR_lt _ _ (by decide) (by decide) x y)
theorem xorReg (x y : Reg) : Statement (.xorReg x y) := of_lt _ (wordFR_lt _ _ (by decide) (by decide) x y)
theorem addReg (x y : Reg) : Statement (.addReg x y) := of_lt _ (wordFR_lt _ _ (by decide) (by decide) x y)
theorem subReg (x y : Reg) : Statement (.subReg x y) := of_lt _ (wordFR_lt _ _ (by decide) (by decide) x y)
theorem shr (x y : Reg) : Statement (.shr x y) := of_lt _ (wordFR_lt _ _ (by decide) (by decide) x y)
theorem subnReg (x y : Reg) : Statement (.subnReg x y) := of_lt _ (wordFR_lt _ _ (by decide) (by decide) x y)
theorem shl (x y : Reg) : Statement (.shl x y) := of_lt _ (wordFR_lt _ _ (by decide) (by decide) x y)
theorem sneReg (x y : Reg) : Statement (.sneReg x y) := of_lt _ (wordFR_lt _ _ (by decide) (by decide) x y)
theorem ldI (nnn : Addr12) : Statement (.ldI nnn) := of_lt _ (by simp only [encodeNat]; omega)
theorem jpV0 (nnn : Addr12) : Statement (.jpV0 nnn) := of_lt _ (by simp only [encodeNat]; omega)
theorem rnd (x : Reg) (nn : Byte) : Statement (.rnd x nn) := of_lt _ (wordFI_lt _ (by decide) x nn)
theorem drw (x y : Reg) (n : Fin 16) : Statement (.drw x y n) := of_lt _ (wordFR_lt _ _ (by decide) n.isLt x y)
theorem skp (x : Reg) : Statement (.skp x) := of_lt _ (wordFX_lt _ _ (by decide) (by decide) x)
theorem sknp (x : Reg) : Statement (.sknp x) := of_lt _ (wordFX_lt _ _ (by decide) (by decide) x)
theorem ldVxDt (x : Reg) : Statement (.ldVxDt x) := of_lt _ (wordFX_lt _ _ (by decide) (by decide) x)
theorem ldVxK (x : Reg) : Statement (.ldVxK x) := of_lt _ (wordFX_lt _ _ (by decide) (by decide) x)
theorem ldDtVx (x : Reg) : Statement (.ldDtVx x) := of_lt _ (wordFX_lt _ _ (by decide) (by decide) x)
theorem ldStVx (x : Reg) : Statement (.ldStVx x) := of_lt _ (wordFX_lt _ _ (by decide) (by decide) x)
theorem addI (x : Reg) : Statement (.addI x) := of_lt _ (wordFX_lt _ _ (by decide) (by decide) x)
theorem ldF (x : Reg) : Statement (.ldF x) := of_lt _ (wordFX_lt _ _ (by decide) (by decide) x)
theorem ldB (x : Reg) : Statement (.ldB x) := of_lt _ (wordFX_lt _ _ (by decide) (by decide) x)
theorem storeRegs (x : Reg) : Statement (.storeRegs x) := of_lt _ (wordFX_lt _ _ (by decide) (by decide) x)
theorem loadRegs (x : Reg) : Statement (.loadRegs x) := of_lt _ (wordFX_lt _ _ (by decide) (by decide) x)

end Sys2Proof.Laws.WordShape
end

