-- ==== Sys2Proof/Laws/Step.lean ====
section
/-! SUPPORT. What one step can do, said once: the cases of `step`, and those of the meanings that can raise an error. Later
proofs cite these and do not unfold `step`. -/

namespace Sys2Proof.Machine

/-- Every step of a loaded core is one of: the latched error again, the fetch error, an instruction, an unmatched word. -/
theorem step_cases (s t : State) (h : step s = .next t) :
    s.loaded = true ∧
    ((∃ e, s.fault = some e ∧ t = s.latchedReturn e) ∨
     (s.fault = none ∧ 0xFFE < s.pc.toNat ∧ t = s.raiseAt s.pc (.fetchOutOfBounds s.pc)) ∨
     (s.fault = none ∧ s.pc.toNat ≤ 0xFFE ∧ ∃ i, decode s.fetchWord = .ok i ∧ exec i s.fetched = .next t) ∨
     (s.fault = none ∧ s.pc.toNat ≤ 0xFFE ∧ ∃ e, decode s.fetchWord = .error e ∧
        t = s.fetched.unmatched s.fetchWord)) := by
  unfold step State.mayStep State.fetchInBounds at h
  split at h
  · next hl =>
    refine ⟨hl, ?_⟩
    split at h
    · next e he => exact .inl ⟨e, he, by simpa using h.symm⟩
    · next hf =>
      split at h
      · next hb =>
        have hb : s.pc.toNat ≤ 0xFFE := by simpa using hb
        split at h
        · next i hi => exact .inr (.inr (.inl ⟨hf, hb, i, hi, h⟩))
        · next e he => exact .inr (.inr (.inr ⟨hf, hb, e, he, by simpa using h.symm⟩))
      · next hb => exact .inr (.inl ⟨hf, by simpa using hb, by simpa using h.symm⟩)
  · simp at h

/-- A step of a loaded core with a clear latch and pc in bounds runs the decoded instruction. -/
theorem step_of_decode (s : State) (i : Instr) (hl : s.loaded = true) (hf : s.fault = none)
    (hp : s.pc.toNat ≤ 0xFFE) (hd : decode s.fetchWord = .ok i) : step s = exec i s.fetched := by
  simp [step, State.mayStep, State.fetchInBounds, hl, hf, hp, hd]

theorem step_of_unmatched (s : State) (e : Reject) (hl : s.loaded = true) (hf : s.fault = none)
    (hp : s.pc.toNat ≤ 0xFFE) (hd : decode s.fetchWord = .error e) :
    step s = .next (s.fetched.unmatched s.fetchWord) := by
  simp [step, State.mayStep, State.fetchInBounds, hl, hf, hp, hd]

theorem step_of_fetch_error (s : State) (hl : s.loaded = true) (hf : s.fault = none) (hp : 0xFFE < s.pc.toNat) :
    step s = .next (s.raiseAt s.pc (.fetchOutOfBounds s.pc)) := by
  simp [step, State.mayStep, State.fetchInBounds, hl, hf, Nat.not_le.2 hp]

theorem step_of_latched (s : State) (e : StepError) (hl : s.loaded = true) (hf : s.fault = some e) :
    step s = .next (s.latchedReturn e) := by
  simp [step, State.mayStep, hl, hf]

/-- A step before the load is refused. -/
theorem step_of_unloaded (s : State) (hl : s.loaded = false) : step s = .refused .stepBeforeLoad := by
  simp [step, State.mayStep, hl]

/-- What the bound-checked meanings do (R35): raise with the first bad address, or go on when every address is below 0x1000. -/
theorem dataFault_cases (s : State) (len : Nat) :
    (s.dataFault len = none ∧ (len = 0 ∨ s.i.toNat + len ≤ 0x1000)) ∨
    (s.dataFault len = some (max s.i.toNat 0x1000) ∧ len ≠ 0 ∧ 0x1000 < s.i.toNat + len) := by
  unfold State.dataFault
  rw [firstBadAddress_eq]
  split
  · next h => exact .inl ⟨rfl, h⟩
  · next h => exact .inr ⟨rfl, by omega, by omega⟩

/-- No instruction writes the keys, `loaded` or the parameters (R26). -/
theorem exec_keeps_host_state (i : Instr) (s t : State) (h : exec i s = .next t) :
    t.keys = s.keys ∧ t.loaded = s.loaded ∧ t.cfg = s.cfg := by
  cases i <;>
    simp only [exec, execCls, execRet, execJp, execCall, execSeImm, execSneImm, execSeReg, execSneReg, execLdImm,
      execAddImm, execLdReg, execOrReg, execAndReg, execXorReg, execAddReg, execSubReg, execShr, execSubnReg, execShl,
      execLdI, execJpV0, execRnd, execDrw, execSkp, execSknp, execLdVxDt, execLdVxK, execLdDtVx, execLdStVx, execAddI,
      execLdF, execLdB, execStoreRegs, execLoadRegs] at h
  all_goals first
    | (cases h; exact ⟨by simp, by simp, by simp⟩)
    | (split at h <;> cases h <;> exact ⟨by simp, by simp, by simp⟩)

/-- Every instruction completes: `exec` never stops. -/
theorem exec_next (i : Instr) (s : State) : ∃ t, exec i s = .next t := by
  cases i <;>
    simp only [exec, execCls, execRet, execJp, execCall, execSeImm, execSneImm, execSeReg, execSneReg, execLdImm,
      execAddImm, execLdReg, execOrReg, execAndReg, execXorReg, execAddReg, execSubReg, execShr, execSubnReg, execShl,
      execLdI, execJpV0, execRnd, execDrw, execSkp, execSknp, execLdVxDt, execLdVxK, execLdDtVx, execLdStVx, execAddI,
      execLdF, execLdB, execStoreRegs, execLoadRegs] <;>
    first | exact ⟨_, rfl⟩ | (split <;> exact ⟨_, rfl⟩)

/-- How an instruction ends, said once for all 34: it leaves the latch and the outcome alone, or it is the key wait with no
key down, or it raises an error and does nothing else. -/
theorem exec_outcome (i : Instr) (s t : State) (h : exec i s = .next t) :
    (t.fault = s.fault ∧ t.reply = s.reply) ∨
    (t = s.awaitKey ∧ (∃ x, i = .ldVxK x) ∧ ∀ k : Fin 16, s.keys[k] = false) ∨
    (∃ e, t = s.raise e) := by
  cases i <;>
    simp only [exec, execCls, execRet, execJp, execCall, execSeImm, execSneImm, execSeReg, execSneReg, execLdImm,
      execAddImm, execLdReg, execOrReg, execAndReg, execXorReg, execAddReg, execSubReg, execShr, execSubnReg, execShl,
      execLdI, execJpV0, execRnd, execDrw, execSkp, execSknp, execLdVxDt, execLdVxK, execLdDtVx, execLdStVx, execAddI,
      execLdF, execLdB, execStoreRegs, execLoadRegs] at h
  case ldVxK x =>
    split at h
    · next hk => cases h; exact .inr (.inl ⟨rfl, ⟨x, rfl⟩, (selectKey_none _).1 hk⟩)
    · cases h; exact .inl (by simp)
  all_goals first
    | (cases h; left; simp)
    | (split at h <;> cases h <;> first | (left; simp; done) | exact .inr (.inr ⟨_, rfl⟩))

/-- What an unmatched word does (R52): nothing after the fetch, or the error. -/
theorem unmatched_cases (s : State) (w : Word) :
    (s.cfg.strictDecode = false ∧ s.fetched.unmatched w = s.fetched) ∨
    (s.cfg.strictDecode = true ∧ s.fetched.unmatched w = s.fetched.raise (.unknownOpcode s.pc w)) := by
  unfold State.unmatched
  split
  · next h => exact .inr ⟨h, by rw [State.ipc_fetched]⟩
  · next h => exact .inl ⟨by simpa using h, rfl⟩

end Sys2Proof.Machine
end

