-- ==== Sys2Proof/Tests/Slice0.lean ====
section
/-! SUPPORT. The model's own tests: the checks of WellFormed refuse ill-formed terms; words written out from the patterns of
30_encoding.md R50 decode to their instructions; single steps give what spec/95_test_vectors.md says (its ids W1 to W6 and T1 to
T119 are named); and a witness for the hypotheses of each statement in Certificates/Slice0/Obligations.lean. -/

namespace Sys2Proof.Tests

open Sys2Proof Sys2Proof.Machine

/-! ### WellFormed: an ill-formed term for each check, refused -/

theorem test_config_short_table_refused :
    Config.wellFormed { strictDecode := false, glyphTable := [0xF0, 0x90] } = false := by decide

theorem test_config_default_accepted : Config.wellFormed Config.default = true := by decide

theorem test_image_too_long_refused : imageWellFormed (List.replicate 3585 0) = false := by decide +kernel

theorem test_image_largest_accepted : imageWellFormed (List.replicate 3584 0) = true := by decide +kernel

theorem test_key_16_refused : keyIndexWellFormed 16 = false := by decide

theorem test_key_15_accepted : keyIndexWellFormed 15 = true := by decide

/-! ### Decode: words written out bit by bit from R50 -/

theorem test_decode_cls : decodeTableWord 16 0b0000000011100000 = some .cls := by decide
theorem test_decode_ret : decodeTableWord 16 0b0000000011101110 = some .ret := by decide
theorem test_decode_jp : decodeTableWord 16 0b0001101010111100 = some (.jp 0xABC) := by decide
theorem test_decode_call : decodeTableWord 16 0b0010001100000000 = some (.call 0x300) := by decide
theorem test_decode_seImm : decodeTableWord 16 0b0011001110000001 = some (.seImm 3 0x81) := by decide
theorem test_decode_sneImm : decodeTableWord 16 0b0100001110000001 = some (.sneImm 3 0x81) := by decide
theorem test_decode_seReg : decodeTableWord 16 0b0101000100100000 = some (.seReg 1 2) := by decide
theorem test_decode_ldImm : decodeTableWord 16 0b0110101000000101 = some (.ldImm 0xA 5) := by decide
theorem test_decode_addImm : decodeTableWord 16 0b0111000111111111 = some (.addImm 1 0xFF) := by decide
theorem test_decode_ldReg : decodeTableWord 16 0b1000000100100000 = some (.ldReg 1 2) := by decide
theorem test_decode_orReg : decodeTableWord 16 0b1000000100100001 = some (.orReg 1 2) := by decide
theorem test_decode_andReg : decodeTableWord 16 0b1000000100100010 = some (.andReg 1 2) := by decide
theorem test_decode_xorReg : decodeTableWord 16 0b1000000100100011 = some (.xorReg 1 2) := by decide
theorem test_decode_addReg : decodeTableWord 16 0b1000000100100100 = some (.addReg 1 2) := by decide
theorem test_decode_subReg : decodeTableWord 16 0b1000000100100101 = some (.subReg 1 2) := by decide
theorem test_decode_shr : decodeTableWord 16 0b1000000100100110 = some (.shr 1 2) := by decide
theorem test_decode_subnReg : decodeTableWord 16 0b1000000100100111 = some (.subnReg 1 2) := by decide
theorem test_decode_shl : decodeTableWord 16 0b1000000100101110 = some (.shl 1 2) := by decide
theorem test_decode_sneReg : decodeTableWord 16 0b1001000100100000 = some (.sneReg 1 2) := by decide
theorem test_decode_ldI : decodeTableWord 16 0b1010001100000001 = some (.ldI 0x301) := by decide
theorem test_decode_jpV0 : decodeTableWord 16 0b1011111110000000 = some (.jpV0 0xF80) := by decide
theorem test_decode_rnd : decodeTableWord 16 0b1100001100001111 = some (.rnd 3 0x0F) := by decide
theorem test_decode_drw : decodeTableWord 16 0b1101000100101111 = some (.drw 1 2 15) := by decide
theorem test_decode_skp : decodeTableWord 16 0b1110001010011110 = some (.skp 2) := by decide
theorem test_decode_sknp : decodeTableWord 16 0b1110001010100001 = some (.sknp 2) := by decide
theorem test_decode_ldVxDt : decodeTableWord 16 0b1111001100000111 = some (.ldVxDt 3) := by decide
theorem test_decode_ldVxK : decodeTableWord 16 0b1111001100001010 = some (.ldVxK 3) := by decide
theorem test_decode_ldDtVx : decodeTableWord 16 0b1111001100010101 = some (.ldDtVx 3) := by decide
theorem test_decode_ldStVx : decodeTableWord 16 0b1111001100011000 = some (.ldStVx 3) := by decide
theorem test_decode_addI : decodeTableWord 16 0b1111001100011110 = some (.addI 3) := by decide
theorem test_decode_ldF : decodeTableWord 16 0b1111001100101001 = some (.ldF 3) := by decide
theorem test_decode_ldB : decodeTableWord 16 0b1111001100110011 = some (.ldB 3) := by decide
theorem test_decode_storeRegs : decodeTableWord 16 0b1111001101010101 = some (.storeRegs 3) := by decide
theorem test_decode_loadRegs : decodeTableWord 16 0b1111001101100101 = some (.loadRegs 3) := by decide

/-- R51, R53, T3: words no row matches. -/
theorem test_decode_unmatched :
    [0x00E1, 0x0123, 0x5121, 0x8128, 0x912F, 0xE19F, 0xF100, 0x0000, 0xF066, 0x800F].map (decodeTableWord 16) =
      List.replicate 10 none := by decide

/-! ### One step on a small state -/

/-- The reset state with some registers preset. -/
def withRegs (l : List (Reg × Byte)) : State := l.foldl (fun s p => s.setReg p.1 p.2) State.reset

/-- The reset state with key `k` down. -/
def withKey (k : Fin 16) : State := { State.reset with keys := State.reset.keys.set k true }

/-- The reset state under STRICT_DECODE. -/
def strict : State := State.construct { Config.default with strictDecode := true }

/-- A property of the state one step of the word `w` leaves. -/
def stepGives (s : State) (w : Nat) (p : State → Bool) : Bool :=
  match step (s.withFetchWord 16 w) with
  | .next t => p t
  | .fault _ => false
  | .refused _ => false

/-- The registers `r` and VF and the pc after one step of `w`. -/
def regsAfter (s : State) (w : Nat) (r : Reg) : Option (Byte × Byte × Word) :=
  match step (s.withFetchWord 16 w) with
  | .next t => some (t.reg r, t.reg VF, t.pc)
  | .fault _ => none
  | .refused _ => none

/-- The pc after one step of `w`. -/
def pcAfter (s : State) (w : Nat) : Option Word :=
  match step (s.withFetchWord 16 w) with
  | .next t => some t.pc
  | .fault _ => none
  | .refused _ => none

/-- The error in the latch after one step of `w`, with the pc. -/
def errorAfter (s : State) (w : Nat) : Option (Option StepError × Word) :=
  match step (s.withFetchWord 16 w) with
  | .next t => some (t.fault, t.pc)
  | .fault _ => none
  | .refused _ => none

/-- T1: an unmatched word is a no-op. -/
theorem test_unmatched_permissive :
    stepGives State.reset 0x0123 (fun t => t == { (State.reset.withFetchWord 16 0x0123) with pc := 0x202, reply := .ok })
      = true := by decide

/-- T2. -/
theorem test_unmatched_strict : errorAfter strict 0x0123 = some (some (.unknownOpcode 0x200 0x0123), 0x200) := by decide

/-- T5, T6, T7: the last word is fetched, above it the fetch raises. -/
theorem test_fetch_last_word : regsAfter { State.reset with pc := 0xFFE } 0x6A05 0xA = some (5, 0, 0x1000) := by decide

theorem test_fetch_above_ffe : errorAfter { State.reset with pc := 0xFFF } 0x6A05 =
    some (some (.fetchOutOfBounds 0xFFF), 0xFFF) := by decide

/-- T8: an odd pc. -/
theorem test_fetch_odd_pc : regsAfter { State.reset with pc := 0x201 } 0x6A05 0xA = some (5, 0, 0x203) := by decide

/-- T9: the latch. -/
theorem test_latched_step :
    let s : State := { State.reset with loaded := true, fault := some (.stackUnderflow 0x200 0x00EE) }
    step s = .next { s with reply := .error (.stackUnderflow 0x200 0x00EE) } := by rfl

/-- T11, T12. -/
theorem test_cls :
    stepGives ((State.reset.setPixel 0 1).setPixel 2047 1) 0x00E0
      (fun t => t.pixel 0 == 0 && t.pixel 2047 == 0 && t.redraw && t.pc == 0x202) = true := by decide

/-- T14. -/
theorem test_ret_pops :
    stepGives { State.reset with sp := 2, stack := State.reset.stack.set 1 0x456 } 0x00EE
      (fun t => t.pc == 0x456 && t.sp == 1 && t.stack[1] == 0x456) = true := by decide

/-- T13. -/
theorem test_ret_underflow : errorAfter State.reset 0x00EE = some (some (.stackUnderflow 0x200 0x00EE), 0x200) := by decide

/-- T15. -/
theorem test_jp : pcAfter State.reset 0x1ABC = some 0xABC := by decide

/-- T18. -/
theorem test_call_pushes :
    stepGives { State.reset with sp := 15 } 0x2300 (fun t => t.pc == 0x300 && t.sp == 16 && t.stack[15] == 0x202)
      = true := by decide

/-- T19. -/
theorem test_call_overflow :
    errorAfter { State.reset with sp := 16 } 0x2300 = some (some (.stackOverflow 0x200 0x2300), 0x200) := by decide

/-- T21, T22. -/
theorem test_seImm : pcAfter State.reset 0x3300 = some 0x204 ∧ pcAfter (withRegs [(3, 1)]) 0x3300 = some 0x202 := by decide

/-- T24, T25. -/
theorem test_sneImm : pcAfter (withRegs [(3, 1)]) 0x4300 = some 0x204 ∧ pcAfter State.reset 0x4300 = some 0x202 := by decide

/-- T26. -/
theorem test_seReg : pcAfter (withRegs [(1, 7), (2, 7)]) 0x5120 = some 0x204 ∧
    pcAfter (withRegs [(1, 7), (2, 8)]) 0x5120 = some 0x202 := by decide

/-- T28, T29. -/
theorem test_sneReg : pcAfter (withRegs [(1, 7), (2, 8)]) 0x9120 = some 0x204 ∧
    pcAfter (withRegs [(1, 7)]) 0x9110 = some 0x202 := by decide

/-- W1. -/
theorem test_ldImm : regsAfter State.reset 0x6A05 0xA = some (5, 0, 0x202) := by decide

/-- T33. -/
theorem test_addImm_wraps_without_carry : regsAfter (withRegs [(1, 0xFF), (0xF, 7)]) 0x7102 1 = some (1, 7, 0x202) := by
  decide

/-- T35. -/
theorem test_ldReg : regsAfter (withRegs [(2, 0x3C)]) 0x8120 1 = some (0x3C, 0, 0x202) := by decide

/-- T36. -/
theorem test_orReg_keeps_vf : regsAfter (withRegs [(1, 0x0F), (2, 0xF0), (0xF, 9)]) 0x8121 1 = some (0xFF, 9, 0x202) := by
  decide

/-- T37. -/
theorem test_andReg : regsAfter (withRegs [(1, 0x3C), (2, 0x0F)]) 0x8122 1 = some (0x0C, 0, 0x202) := by decide

/-- T38. -/
theorem test_xorReg : regsAfter (withRegs [(1, 0x3C), (2, 0x0F)]) 0x8123 1 = some (0x33, 0, 0x202) := by decide

/-- T40, T44. -/
theorem test_addReg_carry : regsAfter (withRegs [(1, 0xFF), (2, 1)]) 0x8124 1 = some (0, 1, 0x202) ∧
    regsAfter (withRegs [(1, 5), (0xF, 0xFF)]) 0x81F4 1 = some (4, 1, 0x202) := by decide

/-- T43: with X = F the sum stays. -/
theorem test_addReg_into_vf : regsAfter (withRegs [(1, 1), (0xF, 0xFF)]) 0x8F14 0xF = some (0, 0, 0x202) := by decide

/-- T46, T47. -/
theorem test_subReg : regsAfter (withRegs [(1, 3), (2, 5)]) 0x8125 1 = some (0xFE, 0, 0x202) ∧
    regsAfter (withRegs [(1, 7), (2, 7)]) 0x8125 1 = some (0, 1, 0x202) := by decide

/-- T48. -/
theorem test_subReg_vf_vf : regsAfter (withRegs [(0xF, 9)]) 0x8FF5 0xF = some (0, 0, 0x202) := by decide

/-- T4, T52. -/
theorem test_shr : regsAfter (withRegs [(1, 4), (2, 0xFF)]) 0x8126 1 = some (2, 0, 0x202) ∧
    regsAfter (withRegs [(1, 0xFF)]) 0x8106 1 = some (0x7F, 1, 0x202) := by decide

/-- T53. -/
theorem test_shr_vf : regsAfter (withRegs [(0xF, 0xFF)]) 0x8F16 0xF = some (0x7F, 0x7F, 0x202) := by decide

/-- T54, T55. -/
theorem test_subnReg : regsAfter (withRegs [(1, 3), (2, 5)]) 0x8127 1 = some (2, 1, 0x202) ∧
    regsAfter (withRegs [(1, 5), (2, 3)]) 0x8127 1 = some (0xFE, 0, 0x202) := by decide

/-- T57, T58. -/
theorem test_shl : regsAfter (withRegs [(1, 0x81)]) 0x810E 1 = some (2, 1, 0x202) ∧
    regsAfter (withRegs [(1, 0x40)]) 0x810E 1 = some (0x80, 0, 0x202) := by decide

/-- T62. -/
theorem test_ldI : stepGives State.reset 0xAFFF (fun t => t.i == 0xFFF) = true := by decide

/-- T63, T64. -/
theorem test_jpV0 : pcAfter (withRegs [(0, 4)]) 0xB300 = some 0x304 ∧
    pcAfter (withRegs [(0, 0xFF)]) 0xBF80 = some 0x107F := by decide

/-- T67: with NN = 0 the result is 0 whatever is drawn. -/
theorem test_rnd_masked_out : stepGives State.reset 0xC300 (fun t => t.draws == 1 && t.pc == 0x202) = true := by decide

/-- T69, T71: bit 7 is leftmost; columns wrap within the row. -/
theorem test_drw_wraps_columns :
    stepGives (((withRegs [(0, 60)]).setIndex 0x300).writeByte 0x300 0xFE) 0xD011
      (fun t => (t.fb == [(0, 1), (1, 1), (2, 1), (60, 1), (61, 1), (62, 1), (63, 1)]) && t.reg VF == 0 && t.redraw)
      = true := by decide

/-- T76, T79: a lit cell is turned off and VF is 1; a coordinate in VF is read before the clear. -/
theorem test_drw_collision_coordinate_in_vf :
    stepGives ((((withRegs [(0xF, 3)]).setIndex 0x300).writeByte 0x300 0x80).setPixel (3 + 64 * 3) 1) 0xDFF1
      (fun t => (t.fb == []) && t.reg VF == 1) = true := by decide

/-- T83, T84. -/
theorem test_skp : pcAfter ((withKey 5).setReg 0 5) 0xE09E = some 0x204 ∧ pcAfter (withRegs [(0, 5)]) 0xE09E = some 0x202 := by
  decide

/-- T87. -/
theorem test_skp_index_16 :
    errorAfter (withRegs [(0, 16)]) 0xE09E = some (some (.keyOutOfBounds 0x200 0xE09E 16), 0x200) := by decide

/-- T85, T86. -/
theorem test_sknp : pcAfter (withRegs [(0, 5)]) 0xE0A1 = some 0x204 ∧ pcAfter ((withKey 5).setReg 0 5) 0xE0A1 = some 0x202 := by
  decide

/-- T88. -/
theorem test_sknp_index_ff :
    errorAfter (withRegs [(0, 0xFF)]) 0xE0A1 = some (some (.keyOutOfBounds 0x200 0xE0A1 0xFF), 0x200) := by decide

/-- T89. -/
theorem test_ldVxDt : regsAfter (State.reset.setDelay 0x3C) 0xF307 3 = some (0x3C, 0, 0x202) := by decide

/-- T91. -/
theorem test_ldVxK_waits :
    stepGives (withRegs [(0xF, 4)]) 0xFF0A (fun t => t.pc == 0x200 && t.reg VF == 4 && t.reply == .awaitingKey) = true := by
  decide

/-- W5. -/
theorem test_ldVxK_stores : regsAfter (withKey 7) 0xF00A 0 = some (7, 0, 0x202) := by decide

/-- T92. -/
theorem test_ldDtVx : stepGives (withRegs [(0, 3)]) 0xF015 (fun t => t.dt == 3 && t.st == 0) = true := by decide

/-- T93. -/
theorem test_ldStVx : stepGives (withRegs [(0, 2)]) 0xF018 (fun t => t.st == 2 && t.dt == 0) = true := by decide

/-- T97, T98. -/
theorem test_addI : stepGives ((withRegs [(1, 0x10)]).setIndex 0xFFA) 0xF11E (fun t => t.i == 0x100A && t.reg VF == 0) = true ∧
    stepGives ((withRegs [(1, 2)]).setIndex 0xFFFF) 0xF11E (fun t => t.i == 1) = true := by decide

/-- T100, T101. -/
theorem test_ldF : stepGives (withRegs [(0, 0x0F)]) 0xF029 (fun t => t.i == 0x09B) = true ∧
    stepGives (withRegs [(0, 0xFF)]) 0xF029 (fun t => t.i == 0x54B) = true := by decide

/-- T105. -/
theorem test_ldB : stepGives ((withRegs [(0, 42)]).setIndex 0xFFD) 0xF033
    (fun t => t.readByte 0xFFD == 0 && t.readByte 0xFFE == 4 && t.readByte 0xFFF == 2 && t.i == 0xFFD) = true := by decide

/-- T106. -/
theorem test_ldB_out_of_bounds :
    errorAfter ((withRegs [(0, 123)]).setIndex 0xFFE) 0xF033 = some (some (.dataOutOfBounds 0x200 0xF033 0x1000), 0x200) := by
  decide

/-- T107. -/
theorem test_storeRegs : stepGives ((withRegs [(0, 0xAA), (1, 0xBB)]).setIndex 0x300) 0xF055
    (fun t => t.readByte 0x300 == 0xAA && t.readByte 0x301 == 0 && t.i == 0x300) = true := by decide

/-- T109. -/
theorem test_storeRegs_out_of_bounds :
    errorAfter (State.reset.setIndex 0xFF1) 0xFF55 = some (some (.dataOutOfBounds 0x200 0xFF55 0x1000), 0x200) := by decide

/-- T111: the default glyphs. -/
theorem test_loadRegs : stepGives (State.reset.setIndex 0x050) 0xFF65 (fun t => t.v.toList ==
    [0xF0, 0x90, 0x90, 0x90, 0xF0, 0x20, 0x60, 0x20, 0x20, 0x70, 0xF0, 0x10, 0xF0, 0x80, 0xF0, 0xF0]) = true := by decide

/-- T112. -/
theorem test_loadRegs_out_of_bounds :
    errorAfter (State.reset.setIndex 0x1000) 0xF065 = some (some (.dataOutOfBounds 0x200 0xF065 0x1000), 0x200) := by decide

/-! ### The host's calls -/

/-- W6, T95. -/
theorem test_tick : (tickTimers (State.reset.setDelay 5)).dt = 4 ∧ (tickTimers State.reset).dt = 0 ∧
    (tickTimers (State.reset.setSound 1)).st = 0 ∧ (tickTimers (State.reset.setSound 1)).reply = .tone true ∧
    (tickTimers State.reset).reply = .tone false := by decide

/-- A property of the state after some calls of the host. -/
def runGives (calls : List HostAction) (s : State) (p : State → Bool) : Bool :=
  match hostRun calls s with
  | .next t => p t
  | .fault _ => false
  | .refused _ => false

/-- T119 and W1: a three-byte image, then one step. -/
theorem test_load_then_step :
    runGives [.load (some [0x6A, 0x05, 0x12]), .step] State.reset
      (fun t => t.reg 0xA == 5 && t.readByte 0x202 == 0x12 && t.readByte 0x203 == 0 && t.loaded) = true := by decide

/-- T118. -/
theorem test_second_load_refused :
    hostAct (.load (some [])) { State.reset with loaded := true } = .refused .secondLoad := by rfl

/-- T96. -/
theorem test_setKey_16_refused : hostAct (.setKey 16 true) State.reset = .refused .keyIndexAbove15 := by rfl

/-! ### Witnesses: states and operands that meet each statement's hypotheses -/

/-- A loaded core at reset values, ready to step. -/
def ready : State := { State.reset with loaded := true }

/-- A ready core with the bytes of a word at 0x200. -/
def readyWith (w : Nat) : State := ready.withFetchWord 16 w

theorem witness_EncodeOfDecodeIsTheWord : decode 0x8AB6 = .ok (.shr 0xA 0xB) := by rfl

theorem witness_DecodeFollowsTheOpcodeTable :
    (⟨"SHR_VX", 0xF00F, 0x8006⟩ : Row) ∈ opcodeRows ∧ (⟨"SHR_VX", 0xF00F, 0x8006⟩ : Row).selects 0x8AB6 = true ∧
      decode 0x8AB6 = .ok (.shr 0xA 0xB) := ⟨by decide, by decide, rfl⟩

/-- At the edges of the ranges of unmatched words. -/
theorem witness_UnmatchedWordsAreExactlyThese :
    [0x0000, 0x0FFF, 0x500F, 0x9FF1, 0x8008, 0x8FFF, 0xE09D, 0xEFA2, 0xF000, 0xFFFF].map (decodeTableWord 16) =
      List.replicate 10 none ∧
    [0x00E0, 0x1000, 0x5FF0, 0x8FFE, 0xEFA1, 0xFF65].map (fun w => (decodeTableWord 16 w).isSome) = List.replicate 6 true := by
  decide

theorem witness_EveryInstructionIsTwoBytes : decodeBytes [0x6A, 0x05, 0x12] = .ok (.ldImm 0xA 5, [0x12]) := by rfl

/-- At the last pc that is fetched. -/
def atLastWord : State := { ready with pc := 0xFFE }.withFetchWord 16 0x6A05

theorem witness_StepRunsTheDecodedInstruction :
    atLastWord.loaded = true ∧ atLastWord.fault = none ∧ atLastWord.pc.toNat ≤ 0xFFE ∧
    decode (BitVec.ofNat 16 ((atLastWord.readByte atLastWord.pc.toNat).toNat * 256 +
      (atLastWord.readByte (atLastWord.pc.toNat + 1)).toNat)) = .ok (.ldImm 0xA 5) :=
  ⟨by decide, by decide, by decide, rfl⟩

theorem witness_UnmatchedWordDoesNothingOrRaises_permissive :
    (readyWith 0x0123).loaded = true ∧ (readyWith 0x0123).fault = none ∧ (readyWith 0x0123).pc.toNat ≤ 0xFFE ∧
    decode (readyWith 0x0123).fetchWord = .error (.unmatched (readyWith 0x0123).fetchWord) ∧
    (readyWith 0x0123).cfg.strictDecode = false := ⟨by decide, by decide, by decide, rfl, by decide⟩

theorem witness_UnmatchedWordDoesNothingOrRaises_strict :
    (strict.withFetchWord 16 0x5121).loaded = true ∧ (strict.withFetchWord 16 0x5121).fault = none ∧
    (strict.withFetchWord 16 0x5121).pc.toNat ≤ 0xFFE ∧
    decode (strict.withFetchWord 16 0x5121).fetchWord = .error (.unmatched (strict.withFetchWord 16 0x5121).fetchWord) ∧
    (strict.withFetchWord 16 0x5121).cfg.strictDecode = true := ⟨by decide, by decide, by decide, rfl, by decide⟩

theorem witness_FetchBoundIsTheLastWord_above : ({ ready with pc := 0xFFF } : State).loaded = true ∧
    ({ ready with pc := 0xFFF } : State).fault = none ∧ 0xFFE < ({ ready with pc := 0xFFF } : State).pc.toNat := by decide

theorem witness_FetchBoundIsTheLastWord_below : atLastWord.loaded = true ∧ atLastWord.fault = none ∧ atLastWord.pc.toNat ≤ 0xFFE ∧
    ∃ t, step atLastWord = .next t := ⟨by decide, by decide, by decide, _, rfl⟩

theorem witness_EveryStepHasOneOutcome :
    stepGives State.reset 0x6A05 (fun t => t.reply == .ok) = true ∧
    stepGives State.reset 0xF00A (fun t => t.reply == .awaitingKey) = true ∧
    stepGives State.reset 0x00EE (fun t => t.reply == .error (.stackUnderflow 0x200 0x00EE)) = true := by decide

theorem witness_RaisedErrorChangesOnlyTheLatch : (readyWith 0x00EE).fault = none ∧
    ∃ t, step (readyWith 0x00EE) = .next t ∧ t.fault = some (.stackUnderflow 0x200 0x00EE) := ⟨by decide, _, rfl, rfl⟩

/-- A loaded core with an error in the latch. -/
def latched : State := { ready with fault := some (.fetchOutOfBounds 0xFFF) }

theorem witness_LatchHoldsForever : latched.loaded = true ∧ latched.fault = some (.fetchOutOfBounds 0xFFF) ∧
    (∃ t, hostAct .step latched = .next t) ∧ (∃ t, hostAct .tick latched = .next t) :=
  ⟨by decide, by decide, ⟨_, rfl⟩, ⟨_, rfl⟩⟩

theorem witness_EachInstructionRaisesOneKindOfError : ready.fault = none ∧
    ∃ t, exec .ret ready = .next t ∧ t.fault = some (.stackUnderflow 0x1FE 0x00EE) := ⟨by decide, _, rfl, rfl⟩

theorem witness_EachInstructionRaisesOneKindOfError_data : ∃ t, exec (.loadRegs 0) (ready.setIndex 0xFFFF) = .next t ∧
    t.fault = some (.dataOutOfBounds 0x1FE 0xF065 0xFFFF) := ⟨_, rfl, rfl⟩

theorem witness_ReturnPopsTheAddress_full : ({ ready with sp := 16 } : State).sp.val = (15 : Fin 16).val + 1 := by decide

theorem witness_ReturnPopsTheAddress_empty : ready.sp.val = 0 := by decide

theorem witness_JumpSetsThePc : (0xFFF : Addr12) = 0xFFF ∧ ready.loaded = true ∧ ready.fault = none := by decide

theorem witness_CallPushesTheAdvancedPc_last : ({ ready with sp := 15 } : State).sp.val = (15 : Fin 16).val := by decide

theorem witness_CallPushesTheAdvancedPc_full : ({ ready with sp := 16 } : State).sp.val = 16 := by decide

theorem witness_ReturnUndoesCall : ({ ready with sp := 15 } : State).sp.val < 16 := by decide

theorem witness_SkipsCompareRegisters : (withRegs [(3, 1)]).reg 3 = 1 ∧ (withRegs [(3, 1)]).reg 4 ≠ 1 ∧
    (withRegs [(3, 1)]).reg 3 ≠ (withRegs [(3, 1)]).reg 4 ∧ (withRegs [(3, 1)]).reg 4 = (withRegs [(3, 1)]).reg 5 := by decide

/-- R69's corner: a skip at 0xFFE. -/
theorem witness_SkipsCompareRegisters_last : ∃ t, exec (.seImm 3 0) { ready with pc := 0x1000 } = .next t ∧
    0xFFE < t.pc.toNat ∧ t.loaded = true ∧ t.fault = none := ⟨_, rfl, by decide, by decide, by decide⟩

theorem witness_AddWritesSumAndCarry : (1 : Reg) ≠ VF ∧
    255 < ((withRegs [(1, 0xFF), (2, 1)]).reg 1).toNat + ((withRegs [(1, 0xFF), (2, 1)]).reg 2).toNat ∧
    ((withRegs [(1, 0xFE), (2, 1)]).reg 1).toNat + ((withRegs [(1, 0xFE), (2, 1)]).reg 2).toNat ≤ 255 := by decide

theorem witness_SubtractWritesDifferenceAndNoBorrow : (1 : Reg) ≠ VF ∧
    ((withRegs [(1, 7), (2, 7)]).reg 2).toNat ≤ ((withRegs [(1, 7), (2, 7)]).reg 1).toNat ∧
    ((withRegs [(1, 6), (2, 7)]).reg 1).toNat < ((withRegs [(1, 6), (2, 7)]).reg 2).toNat := by decide

theorem witness_ShiftsWriteTheBitShiftedOut : (0 : Reg) ≠ VF := by decide

theorem witness_OnlyTheseInstructionsWriteARegister : ∃ t, exec (.ldImm 3 7) ready = .next t ∧ t.reg 3 ≠ ready.reg 3 :=
  ⟨_, rfl, by decide⟩

theorem witness_JumpWithOffsetIsNotMasked : 0xFFE < (0xF00 : Addr12).toNat + ((ready.setReg 0 0xFF).reg 0).toNat ∧
    (ready.setReg 0 0xFF).loaded = true ∧ (ready.setReg 0 0xFF).fault = none := by decide

theorem witness_RandomIsAMaskedFreshDraw : (0x0F : Byte).getLsbD 7 = false := by decide

/-- A sprite of one bit at the last address, drawn where a cell is lit. -/
def spriteAtEnd : State := ((ready.setIndex 0xFFF).writeByte 0xFFF 0x80).setPixel 0 1

theorem witness_DrawFlipsExactlyTheSpriteCells : FrameBuffer.wf spriteAtEnd.fb ∧ spriteAtEnd.i.toNat + (1 : Fin 16).val ≤ 0x1000 ∧
    spriteAtEnd.SpriteMeets 0 1 1 0 ∧ spriteAtEnd.pixel 0 = 1 :=
  ⟨by decide, by decide, ⟨0, 0, by decide, by decide, by decide, by decide⟩, by decide⟩

theorem witness_DrawFlipsExactlyTheSpriteCells_no_rows : (0 : Fin 16).val = 0 ∧ ∀ k, ¬ spriteAtEnd.SpriteMeets 0 1 0 k :=
  ⟨rfl, fun _ ⟨_, _, h, _⟩ => absurd h (by omega)⟩

theorem witness_DrawOutsideMemoryRaises : (2 : Fin 16).val ≠ 0 ∧ 0x1000 < spriteAtEnd.i.toNat + (2 : Fin 16).val := by decide

theorem witness_DrawingTwiceRestoresTheScreen : FrameBuffer.wf (spriteAtEnd.setPixel 0 0).fb ∧
    (spriteAtEnd.setPixel 0 0).i.toNat + (1 : Fin 16).val ≤ 0x1000 ∧ (0 : Reg) ≠ VF ∧ (1 : Reg) ≠ VF ∧
    (spriteAtEnd.setPixel 0 0).SpriteMeets 0 1 1 0 ∧ (spriteAtEnd.setPixel 0 0).pixel 0 = 0 :=
  ⟨by decide, by decide, by decide, by decide, ⟨0, 0, by decide, by decide, by decide, by decide⟩, by decide⟩

theorem witness_OnlyClearAndDrawTouchTheScreen : (∃ t, exec (.ldImm 3 7) (ready.setRedraw true) = .next t) ∧
    (ready.setRedraw true).redraw = true ∧ Instr.ldImm 3 7 ≠ .cls ∧ ∀ x y n, Instr.ldImm 3 7 ≠ .drw x y n :=
  ⟨⟨_, rfl⟩, rfl, by decide, fun _ _ _ => by simp⟩

theorem witness_ScreenAndSoundAreNotRead : (∃ t, exec (.ldStVx 3) ready = .next t) ∧
    ∀ x y n, Instr.ldStVx 3 ≠ .drw x y n := ⟨⟨_, rfl⟩, fun _ _ _ => by simp⟩

theorem witness_KeySkipsTestTheNamedKey : ((withKey 15).setReg 0 15).reg 0 = 15 ∧ ((withKey 15).setReg 0 15).keys[15] = true ∧
    (ready.setReg 0 15).keys[15] = false ∧ 15 < ((ready.setReg 0 16).reg 0).toNat := by decide

theorem witness_WaitForKeyStoresAPressedKey : (∀ k : Fin 16, ready.keys[k] = false) ∧ ∃ k : Fin 16, (withKey 15).keys[k] = true :=
  ⟨by decide, 15, by decide⟩

theorem witness_BcdStoresThreeDigits : Memory.wf ready.cfg ready.mem ∧ (ready.setIndex 0xFFD).i.toNat + 2 ≤ 0xFFF ∧
    0xFFF < (ready.setIndex 0xFFE).i.toNat + 2 := by decide

/-- The largest block up to the last address, and one beyond it. -/
theorem witness_StoreWritesRegistersToMemory : Memory.wf ready.cfg ready.mem ∧
    (ready.setIndex 0xFF0).i.toNat + (15 : Reg).val ≤ 0xFFF ∧ 0xFFF < (ready.setIndex 0xFF1).i.toNat + (15 : Reg).val := by
  decide

theorem witness_LoadReadsRegistersFromMemory : (ready.setIndex 0xFF0).i.toNat + (15 : Reg).val ≤ 0xFFF ∧
    0xFFF < (ready.setIndex 0xFFFF).i.toNat + (0 : Reg).val := by decide

theorem witness_LoadAfterStoreGivesTheRegistersBack : Memory.wf ready.cfg ready.mem ∧
    (ready.setIndex 0xFFF).i.toNat + (0 : Reg).val ≤ 0xFFF := by decide

theorem witness_StoredBytesAreFetchedNext : Memory.wf ready.cfg ready.mem ∧
    (ready.setIndex 0x1FF).i.toNat + (2 : Reg).val ≤ 0xFFF ∧ (1 : Reg).val + 1 ≤ (2 : Reg).val ∧
    (ready.setIndex 0x1FF).pc.toNat = (ready.setIndex 0x1FF).i.toNat + (1 : Reg).val ∧ (2 : Reg).val = (1 : Reg).val + 1 := by
  decide

theorem witness_OnlyTheseInstructionsWriteSpecialState : ∃ t, exec (.ldI 0x300) ready = .next t ∧ t.i ≠ ready.i := ⟨_, rfl, by decide⟩

theorem witness_TickCountsBothTimersDown : 0 < (ready.setSound 1).st.toNat ∧ ready.st.toNat = 0 := by decide

theorem witness_LoadCopiesTheImageOnce : Memory.wf State.reset.cfg State.reset.mem ∧ State.reset.loaded = false ∧
    ([0x6A, 0x05, 0x12] : List Byte).length ≤ 3584 ∧ ([0x6A, 0x05, 0x12] : List Byte)[2]? = some 0x12 ∧
    3584 < (List.replicate 3585 (0 : Byte)).length ∧ ready.loaded = true :=
  ⟨by decide, by decide, by decide, by decide, by rw [List.length_replicate]; decide, by decide⟩

theorem witness_KeyRedrawAndRefusedCalls : 15 < 16 ∧ State.reset.loaded = false := by decide

theorem witness_SnapshotShowsEveryCell : 4095 < 4096 ∧ 2047 < 2048 := by decide

theorem witness_ConstructionValues : Config.default.wellFormed = true ∧ Config.default.glyphTable[79]? = some 0x80 := by decide

/-- A loaded core at reset values meets the invariant. -/
theorem witness_StepKeepsTheInvariant : ready.Inv ∧ ∃ t, step ready = .next t :=
  ⟨⟨cellsWf_nil _ _, cellsWf_nil _ _, fun _ => .inl rfl, by decide, by decide, fun h => absurd rfl h,
    fun _ h => by cases h⟩, _, rfl⟩

theorem witness_HostRunKeepsTheInvariant : ∃ t, hostRun [.tick, .step, .setKey 3 true] ready = .next t := ⟨_, rfl⟩

theorem witness_RunsKeepParametersLoadAndLatch : latched.loaded = true ∧ latched.fault = some (.fetchOutOfBounds 0xFFF) ∧
    ∃ t, hostRun [.tick, .step, .clearRedraw] latched = .next t := ⟨by decide, by decide, _, rfl⟩

theorem witness_HostCannotWriteCoreState : ready.loaded = true ∧ HostAction.step ∉ [HostAction.tick, .setKey 3 true] ∧
    ∃ t, hostRun [.tick, .setKey 3 true] ready = .next t := ⟨by decide, by decide, _, rfl⟩

end Sys2Proof.Tests
end

section
/-! The host's calls and runs of them, said once, and what every run keeps (R7, R23, R24, R182). -/

namespace Sys2Proof.Machine

/-! ### What one call of the host can do -/

/-- The outcomes of a load that is a move (R182): the source unreadable, the image copied, the image too long. -/
theorem loadProgram_cases {source : Option (List Byte)} {s t : State} (h : loadProgram source s = .next t) :
    s.loaded = false ∧
    ((source = none ∧ t = { s with reply := .loadError .unreadable }) ∨
     (∃ bytes, source = some bytes ∧ imageWellFormed bytes = true ∧
        t = { s.writeBytes 0x200 bytes with loaded := true, reply := .ok }) ∨
     (∃ bytes, source = some bytes ∧ imageWellFormed bytes = false ∧
        t = { s with reply := .loadError (.capacity bytes.length) })) := by
  unfold loadProgram at h
  split at h
  · cases h
  · next hl =>
    refine ⟨by simpa using hl, ?_⟩
    split at h
    · cases h
      exact .inl ⟨rfl, rfl⟩
    · next bytes =>
      split at h <;> cases h
      · next hw => exact .inr (.inl ⟨bytes, rfl, hw, rfl⟩)
      · next hw => exact .inr (.inr ⟨bytes, rfl, by simpa using hw, rfl⟩)

/-- A key write that is a move writes the key cells alone (R170). -/
theorem setKey_cases {k : Nat} {b : Bool} {s t : State} (h : setKey k b s = .next t) :
    ∃ hk : k < 16, t = { s with keys := s.keys.set k b hk } := by
  unfold setKey at h
  split at h <;> cases h
  next hk => exact ⟨hk, rfl⟩

/-- A step never writes the keys, `loaded` or the parameters (R26). -/
theorem step_keeps_host_state {s t : State} (h : step s = .next t) :
    t.keys = s.keys ∧ t.loaded = s.loaded ∧ t.cfg = s.cfg := by
  obtain ⟨-, ⟨e, -, rfl⟩ | ⟨-, -, rfl⟩ | ⟨-, -, i, -, hi⟩ | ⟨-, -, e, -, rfl⟩⟩ := step_cases s t h
  · simp
  · simp
  · simpa using exec_keeps_host_state i s.fetched t hi
  · obtain ⟨-, hu⟩ | ⟨-, hu⟩ := unmatched_cases s s.fetchWord <;> simp [hu]

/-- A step under a latched error leaves the latch as it is (R153). -/
theorem step_keeps_latch {s t : State} {e : StepError} (h : step s = .next t) (hf : s.fault = some e) :
    t.fault = some e := by
  rw [step_of_latched s e (step_cases s t h).1 hf] at h
  cases h
  exact hf

/-! ### Runs -/

/-- A run of `a` and then `rest` is the call `a` and then a run of `rest` from where it ended (R172). -/
theorem hostRun_cons_eq_next_iff {a : HostAction} {rest : List HostAction} {s u : State} :
    hostRun (a :: rest) s = .next u ↔ ∃ t, hostAct a s = .next t ∧ hostRun rest t = .next u := by
  rw [hostRun]
  cases hostAct a s <;> simp

/-- The induction over runs: a reflexive and transitive relation that each call of the run keeps relates the run's ends. -/
theorem hostRun_relates {R : State → State → Prop} (hrefl : ∀ s, R s s) (htrans : ∀ s t u, R s t → R t u → R s u)
    {calls : List HostAction} (hact : ∀ a ∈ calls, ∀ s t, hostAct a s = .next t → R s t) {s u : State}
    (h : hostRun calls s = .next u) : R s u := by
  induction calls generalizing s with
  | nil =>
    cases h
    exact hrefl _
  | cons a rest ih =>
    obtain ⟨t, ha, hrest⟩ := hostRun_cons_eq_next_iff.1 h
    exact htrans s t u (hact a (by simp) s t ha) (ih (fun b hb => hact b (by simp [hb])) hrest)

/-! ### The parameters, the load and the latch -/

/-- From `s` to `t` the parameters are fixed (R7), a load made stays made (R24) and a latched error stays latched (R23). -/
structure KeepsParametersLoadAndLatch (s t : State) : Prop where
  cfg : t.cfg = s.cfg
  loaded : s.loaded = true → t.loaded = true
  latch : ∀ e, s.fault = some e → t.fault = some e

namespace KeepsParametersLoadAndLatch

theorem of_eq {s t : State} (hcfg : t.cfg = s.cfg) (hloaded : t.loaded = s.loaded) (hfault : t.fault = s.fault) :
    KeepsParametersLoadAndLatch s t :=
  ⟨hcfg, hloaded.trans, fun _ => hfault.trans⟩

theorem trans {s t u : State} (hst : KeepsParametersLoadAndLatch s t) (htu : KeepsParametersLoadAndLatch t u) :
    KeepsParametersLoadAndLatch s u :=
  ⟨htu.cfg.trans hst.cfg, fun hl => htu.loaded (hst.loaded hl), fun e he => htu.latch e (hst.latch e he)⟩

end KeepsParametersLoadAndLatch

theorem loadProgram_keepsParametersLoadAndLatch {source : Option (List Byte)} {s t : State}
    (h : loadProgram source s = .next t) : KeepsParametersLoadAndLatch s t := by
  obtain ⟨-, ⟨-, rfl⟩ | ⟨bytes, -, -, rfl⟩ | ⟨bytes, -, -, rfl⟩⟩ := loadProgram_cases h
  · exact .of_eq rfl rfl rfl
  · exact ⟨by simp, fun _ => rfl, by simp⟩
  · exact .of_eq rfl rfl rfl

theorem step_keepsParametersLoadAndLatch {s t : State} (h : step s = .next t) : KeepsParametersLoadAndLatch s t := by
  obtain ⟨-, hloaded, hcfg⟩ := step_keeps_host_state h
  exact ⟨hcfg, hloaded.trans, fun _ => step_keeps_latch h⟩

/-- Each call of R170 that is a move keeps all three. -/
theorem hostAct_keepsParametersLoadAndLatch {a : HostAction} {s t : State} (h : hostAct a s = .next t) :
    KeepsParametersLoadAndLatch s t := by
  cases a with
  | load source => exact loadProgram_keepsParametersLoadAndLatch h
  | step => exact step_keepsParametersLoadAndLatch h
  | setKey k b =>
    obtain ⟨-, rfl⟩ := setKey_cases h
    exact .of_eq rfl rfl rfl
  | tick | clearRedraw | read =>
    cases h
    exact .of_eq rfl rfl rfl

/-- Settles O54: each call keeps the parameters, the load and the latch, and so does a run by induction over its calls. -/
theorem runsKeepParametersLoadAndLatch : Obligations.RunsKeepParametersLoadAndLatch := by
  intro calls s t h
  obtain ⟨hcfg, hloaded, hlatch⟩ := hostRun_relates (R := KeepsParametersLoadAndLatch) (fun _ => .of_eq rfl rfl rfl)
    (fun _ _ _ => .trans) (fun _ _ _ _ => hostAct_keepsParametersLoadAndLatch) h
  exact ⟨hcfg, hloaded, hlatch⟩

end Sys2Proof.Machine
end

section
/-! What one instruction writes, said once: each of the 34 is one `Update` of the state, chosen without reading the sound
timer, the redraw flag or the frame buffer. The whole-machine rules of R26 are then facts about the updates. -/

namespace Sys2Proof.Machine

/-! ### The updates an instruction can make -/

/-- The ways an instruction can change the state it runs in (R26). -/
inductive Update where
  | jump (target : Word)
  | skip (c : Bool)
  | pop (k : Fin 16)
  | call (k : Fin 16) (target : Word)
  | setReg (x : Reg) (b : Byte)
  | setFlagged (x : Reg) (flag result : Byte)
  | random (x : Reg) (b : Byte)
  | loadBlock (x : Reg)
  | setIndex (w : Word)
  | setDelay (b : Byte)
  | setSound (b : Byte)
  | store (a : Nat) (bytes : List Byte)
  | clearScreen
  | draw (x0 y0 : Nat) (n : Fin 16)
  | awaitKey
  | raise (e : StepError)

/-- The state an update leaves, by the model's own operations. -/
def Update.apply (u : Update) (s : State) : State :=
  match u with
  | .jump target => s.jump target
  | .skip c => s.skipIf c
  | .pop k => s.popPc k
  | .call k target => (s.pushPc k).jump target
  | .setReg x b => s.setReg x b
  | .setFlagged x flag result => s.setFlagged x flag result
  | .random x b => (s.setReg x b).countDraw
  | .loadBlock x => s.loadBlock x
  | .setIndex w => s.setIndex w
  | .setDelay b => s.setDelay b
  | .setSound b => s.setSound b
  | .store a bytes => s.writeBytes a bytes
  | .clearScreen => s.clearPixels.setRedraw true
  | .draw x0 y0 n => s.drawSprite x0 y0 n.val
  | .awaitKey => s.awaitKey
  | .raise e => s.raise e

/-- What is known of an update that instruction `i` makes: which instructions can make it (R11, R26), how far a jump can go
(R67, R68, R101) and that a store stays in memory (R35). -/
def Update.MadeBy (i : Instr) : Update → Prop
  | .jump target => target.toNat ≤ 0x10FE
  | .pop _ => i = .ret
  | .call _ target => (∃ nnn, i = .call nnn) ∧ target.toNat ≤ 0x10FE
  | .setReg x _ => mayWriteReg i x
  | .setFlagged x _ _ => mayWriteReg i x ∧ mayWriteReg i VF
  | .random x _ => ∃ nn, i = .rnd x nn
  | .loadBlock x => i = .loadRegs x
  | .setIndex _ => (∃ nnn, i = .ldI nnn) ∨ ∃ x, i = .addI x ∨ i = .ldF x
  | .setDelay _ => ∃ x, i = .ldDtVx x
  | .setSound _ => ∃ x, i = .ldStVx x
  | .store a bytes => (∃ x, i = .ldB x ∨ i = .storeRegs x) ∧ a + bytes.length ≤ 4096
  | .clearScreen => i = .cls
  | .draw _ _ _ => ∃ x y n, i = .drw x y n
  | .awaitKey => ∃ x, i = .ldVxK x
  | .skip _ | .raise _ => True

/-! ### Every instruction makes one update -/

/-- The state with other values of the parts that no instruction but DRW reads: sound timer, redraw flag, frame buffer. -/
def State.withOutputs (s : State) (b : Byte) (r : Bool) (f : FrameBuffer) : State :=
  { s with st := b, redraw := r, fb := f }

section
variable (s : State) (b : Byte) (r : Bool) (f : FrameBuffer)

@[simp] theorem State.withOutputs_reg (x : Reg) : (s.withOutputs b r f).reg x = s.reg x := rfl
@[simp] theorem State.withOutputs_keys : (s.withOutputs b r f).keys = s.keys := rfl
@[simp] theorem State.withOutputs_i : (s.withOutputs b r f).i = s.i := rfl
@[simp] theorem State.withOutputs_ipc : (s.withOutputs b r f).ipc = s.ipc := rfl
@[simp] theorem State.withOutputs_topEntry : (s.withOutputs b r f).topEntry = s.topEntry := rfl
@[simp] theorem State.withOutputs_freeEntry : (s.withOutputs b r f).freeEntry = s.freeEntry := rfl
@[simp] theorem State.withOutputs_dataFault (n : Nat) : (s.withOutputs b r f).dataFault n = s.dataFault n := rfl
@[simp] theorem State.withOutputs_regBlock (x : Reg) : (s.withOutputs b r f).regBlock x = s.regBlock x := rfl

end

/-- Instruction `i` makes update `u` in state `s`, whatever the sound timer, the redraw flag and the frame buffer hold. -/
def Update.RunsAs (u : Update) (i : Instr) (s : State) : Prop :=
  ∀ b r f, exec i (s.withOutputs b r f) = .next (u.apply (s.withOutputs b r f))

theorem addrOf_toNat (nnn : Addr12) : (addrOf nnn).toNat = nnn.toNat := by
  have h : (addrOf nnn).toNat = nnn.toNat % 65536 := BitVec.toNat_setWidth 16 nnn
  omega

/-- R101: a jump with offset ends at 0x10FE at the most. -/
theorem jpV0_target_le (nnn : Addr12) (b : Byte) : (addrOf nnn + b.zeroExtend 16).toNat ≤ 0x10FE := by
  have hb : (b.zeroExtend 16).toNat = b.toNat % 65536 := BitVec.toNat_setWidth 16 b
  rw [BitVec.toNat_add, addrOf_toNat, hb]
  omega

theorem addrOf_le (nnn : Addr12) : (addrOf nnn).toNat ≤ 0x10FE := by
  rw [addrOf_toNat]
  omega

theorem regBlock_length (s : State) (x : Reg) : (s.regBlock x).length = x.val + 1 := by
  simp only [State.regBlock, List.length_take, Vector.length_toList]
  omega

/-- A block whose bound check finds no offending address ends below 0x1000 (R35). -/
theorem dataFault_none_le {s : State} {len : Nat} (h : s.dataFault len = none) (hlen : len ≠ 0) :
    s.i.toNat + len ≤ 4096 := by
  obtain ⟨-, hle⟩ | ⟨hsome, -, -⟩ := dataFault_cases s len
  · exact hle.resolve_left hlen
  · simp [h] at hsome

/-- Each instruction makes one update, the raising and the waiting paths among them: the one walk through `exec`. -/
theorem exec_runs_update (i : Instr) (s : State) : ∃ u : Update, u.MadeBy i ∧ u.RunsAs i s := by
  cases i with
  | cls => exact ⟨.clearScreen, rfl, fun _ _ _ => rfl⟩
  | ret =>
    cases hk : s.topEntry with
    | none =>
      refine ⟨.raise (.stackUnderflow s.ipc (encode .ret)), trivial, fun b r f => ?_⟩
      simp [exec, Update.apply, execRet, hk]
    | some k =>
      refine ⟨.pop k, rfl, fun b r f => ?_⟩
      simp [exec, Update.apply, execRet, hk]
  | jp nnn => exact ⟨.jump (addrOf nnn), addrOf_le nnn, fun _ _ _ => rfl⟩
  | call nnn =>
    cases hk : s.freeEntry with
    | none =>
      refine ⟨.raise (.stackOverflow s.ipc (encode (.call nnn))), trivial, fun b r f => ?_⟩
      simp [exec, Update.apply, execCall, hk]
    | some k =>
      refine ⟨.call k (addrOf nnn), ⟨⟨nnn, rfl⟩, addrOf_le nnn⟩, fun b r f => ?_⟩
      simp [exec, Update.apply, execCall, hk]
  | seImm x nn => exact ⟨.skip (s.reg x == nn), trivial, fun _ _ _ => rfl⟩
  | sneImm x nn => exact ⟨.skip (s.reg x != nn), trivial, fun _ _ _ => rfl⟩
  | seReg x y => exact ⟨.skip (s.reg x == s.reg y), trivial, fun _ _ _ => rfl⟩
  | sneReg x y => exact ⟨.skip (s.reg x != s.reg y), trivial, fun _ _ _ => rfl⟩
  | ldImm x nn => exact ⟨.setReg x nn, rfl, fun _ _ _ => rfl⟩
  | addImm x nn => exact ⟨.setReg x (s.reg x + nn), rfl, fun _ _ _ => rfl⟩
  | ldReg x y => exact ⟨.setReg x (s.reg y), rfl, fun _ _ _ => rfl⟩
  | orReg x y => exact ⟨.setReg x (s.reg x ||| s.reg y), rfl, fun _ _ _ => rfl⟩
  | andReg x y => exact ⟨.setReg x (s.reg x &&& s.reg y), rfl, fun _ _ _ => rfl⟩
  | xorReg x y => exact ⟨.setReg x (s.reg x ^^^ s.reg y), rfl, fun _ _ _ => rfl⟩
  | addReg x y =>
    exact ⟨.setFlagged x (carryOut (s.reg x) (s.reg y)) (s.reg x + s.reg y), ⟨.inl rfl, .inr rfl⟩, fun _ _ _ => rfl⟩
  | subReg x y =>
    exact ⟨.setFlagged x (noBorrow (s.reg x) (s.reg y)) (s.reg x - s.reg y), ⟨.inl rfl, .inr rfl⟩, fun _ _ _ => rfl⟩
  | shr x y => exact ⟨.setFlagged x (bitOutRight (s.reg x)) (s.reg x >>> 1), ⟨.inl rfl, .inr rfl⟩, fun _ _ _ => rfl⟩
  | subnReg x y =>
    exact ⟨.setFlagged x (noBorrow (s.reg y) (s.reg x)) (s.reg y - s.reg x), ⟨.inl rfl, .inr rfl⟩, fun _ _ _ => rfl⟩
  | shl x y => exact ⟨.setFlagged x (bitOutLeft (s.reg x)) (s.reg x <<< 1), ⟨.inl rfl, .inr rfl⟩, fun _ _ _ => rfl⟩
  | ldI nnn => exact ⟨.setIndex (addrOf nnn), .inl ⟨nnn, rfl⟩, fun _ _ _ => rfl⟩
  | jpV0 nnn => exact ⟨.jump (addrOf nnn + (s.reg 0).zeroExtend 16), jpV0_target_le nnn _, fun _ _ _ => rfl⟩
  | rnd x nn => exact ⟨.random x (Config.randByte s.draws &&& nn), ⟨nn, rfl⟩, fun _ _ _ => rfl⟩
  | drw x y n =>
    cases ha : s.dataFault n.val with
    | none =>
      refine ⟨.draw (s.reg x).toNat (s.reg y).toNat n, ⟨x, y, n, rfl⟩, fun b r f => ?_⟩
      simp [exec, Update.apply, execDrw, ha]
    | some a =>
      refine ⟨.raise (.dataOutOfBounds s.ipc (encode (.drw x y n)) a), trivial, fun b r f => ?_⟩
      simp [exec, Update.apply, execDrw, ha]
  | skp x =>
    cases hk : keyIndex (s.reg x) with
    | none =>
      refine ⟨.raise (.keyOutOfBounds s.ipc (encode (.skp x)) (s.reg x)), trivial, fun b r f => ?_⟩
      simp [exec, Update.apply, execSkp, hk]
    | some k =>
      refine ⟨.skip s.keys[k], trivial, fun b r f => ?_⟩
      simp [exec, Update.apply, execSkp, hk]
  | sknp x =>
    cases hk : keyIndex (s.reg x) with
    | none =>
      refine ⟨.raise (.keyOutOfBounds s.ipc (encode (.sknp x)) (s.reg x)), trivial, fun b r f => ?_⟩
      simp [exec, Update.apply, execSknp, hk]
    | some k =>
      refine ⟨.skip (!s.keys[k]), trivial, fun b r f => ?_⟩
      simp [exec, Update.apply, execSknp, hk]
  | ldVxDt x => exact ⟨.setReg x s.dt, rfl, fun _ _ _ => rfl⟩
  | ldVxK x =>
    cases hk : selectKey s.keys with
    | none =>
      refine ⟨.awaitKey, ⟨x, rfl⟩, fun b r f => ?_⟩
      simp [exec, Update.apply, execLdVxK, hk]
    | some k =>
      refine ⟨.setReg x (BitVec.ofNat 8 k.val), rfl, fun b r f => ?_⟩
      simp [exec, Update.apply, execLdVxK, hk]
  | ldDtVx x => exact ⟨.setDelay (s.reg x), ⟨x, rfl⟩, fun _ _ _ => rfl⟩
  | ldStVx x => exact ⟨.setSound (s.reg x), ⟨x, rfl⟩, fun _ _ _ => rfl⟩
  | addI x => exact ⟨.setIndex (s.i + (s.reg x).zeroExtend 16), .inr ⟨x, .inl rfl⟩, fun _ _ _ => rfl⟩
  | ldF x => exact ⟨.setIndex (glyphAddress (s.reg x)), .inr ⟨x, .inr rfl⟩, fun _ _ _ => rfl⟩
  | ldB x =>
    cases ha : s.dataFault 3 with
    | none =>
      refine ⟨.store s.i.toNat (bcdDigits (s.reg x)), ⟨⟨x, .inl rfl⟩, dataFault_none_le ha (Nat.succ_ne_zero 2)⟩, fun b r f => ?_⟩
      simp [exec, Update.apply, execLdB, ha]
    | some a =>
      refine ⟨.raise (.dataOutOfBounds s.ipc (encode (.ldB x)) a), trivial, fun b r f => ?_⟩
      simp [exec, Update.apply, execLdB, ha]
  | storeRegs x =>
    cases ha : s.dataFault (x.val + 1) with
    | none =>
      have hle := dataFault_none_le ha (by omega)
      refine ⟨.store s.i.toNat (s.regBlock x), ⟨⟨x, .inr rfl⟩, by rwa [regBlock_length]⟩, fun b r f => ?_⟩
      simp [exec, Update.apply, execStoreRegs, ha]
    | some a =>
      refine ⟨.raise (.dataOutOfBounds s.ipc (encode (.storeRegs x)) a), trivial, fun b r f => ?_⟩
      simp [exec, Update.apply, execStoreRegs, ha]
  | loadRegs x =>
    cases ha : s.dataFault (x.val + 1) with
    | none =>
      refine ⟨.loadBlock x, rfl, fun b r f => ?_⟩
      simp [exec, Update.apply, execLoadRegs, ha]
    | some a =>
      refine ⟨.raise (.dataOutOfBounds s.ipc (encode (.loadRegs x)) a), trivial, fun b r f => ?_⟩
      simp [exec, Update.apply, execLoadRegs, ha]

theorem exec_eq_apply {u : Update} {i : Instr} {s : State} (h : u.RunsAs i s) : exec i s = .next (u.apply s) :=
  h s.st s.redraw s.fb

/-- What one instruction can do, said once: the next state is that of an update the instruction makes. -/
theorem exec_cases {i : Instr} {s t : State} (h : exec i s = .next t) : ∃ u : Update, u.MadeBy i ∧ t = u.apply s := by
  obtain ⟨u, hu, hrun⟩ := exec_runs_update i s
  exact ⟨u, hu, by simpa [h] using exec_eq_apply hrun⟩

end Sys2Proof.Machine
end

section
/-! Which instructions write which part of the state (R11, R22, R26), and that sound timer, redraw flag and frame buffer
are not read (R17, R112): each is a fact about the update an instruction makes. -/

namespace Sys2Proof.Machine

/-! ### What drawing leaves alone, in every state -/

theorem foldl_flipPixel_reg_of_ne_VF (l : List Nat) (s : State) {r : Reg} (hr : r ≠ VF) :
    (l.foldl State.flipPixel s).reg r = s.reg r := by
  induction l generalizing s with
  | nil => rfl
  | cons k rest ih => rw [List.foldl_cons, ih, State.flipPixel_reg, if_neg (fun hk => hr hk.2)]

theorem drawSprite_reg_of_ne_VF (s : State) (x0 y0 n : Nat) {r : Reg} (hr : r ≠ VF) :
    (s.drawSprite x0 y0 n).reg r = s.reg r := by
  have h := foldl_flipPixel_reg_of_ne_VF (s.spriteCells x0 y0 n) (s.setReg VF 0) hr
  rwa [State.reg_setReg_other s VF r 0 hr] at h

/-! ### Registers (R11) -/

/-- An update that changes a register is made by an instruction that may write it. -/
theorem Update.mayWriteReg_of_apply_reg_ne {u : Update} {i : Instr} {s : State} {r : Reg} (hu : u.MadeBy i)
    (hr : (u.apply s).reg r ≠ s.reg r) : mayWriteReg i r := by
  cases u with
  | setReg x b =>
    obtain rfl : r = x := Classical.byContradiction fun hne => hr (State.reg_setReg_other s x r b hne)
    exact hu
  | random x b =>
    obtain ⟨nn, rfl⟩ := hu
    exact Classical.byContradiction fun hne => hr (State.reg_setReg_other s x r b hne)
  | setFlagged x f b =>
    obtain ⟨hx, hVF⟩ := hu
    by_cases hrx : r = x
    · exact hrx ▸ hx
    · by_cases hrV : r = VF
      · exact hrV ▸ hVF
      · simp [Update.apply, State.reg_setFlagged, hrx, hrV] at hr
  | loadBlock x =>
    obtain rfl := hu
    exact Classical.byContradiction fun hle => hr ((s.reg_loadBlock x r).trans (if_neg hle))
  | draw x0 y0 n =>
    obtain ⟨x, y, n, rfl⟩ := hu
    exact Classical.byContradiction fun hne => hr (drawSprite_reg_of_ne_VF s x0 y0 _ hne)
  | _ => simp [Update.apply, State.reg] at hr

/-- Settles O26: the update the instruction makes writes no other register. -/
theorem onlyTheseInstructionsWriteARegister : Obligations.OnlyTheseInstructionsWriteARegister := by
  intro i s t r h hr
  obtain ⟨u, hu, rfl⟩ := exec_cases h
  exact u.mayWriteReg_of_apply_reg_ne hu hr

/-! ### The screen (R22, R112) -/

theorem Update.apply_keeps_redraw_set (u : Update) {s : State} (hs : s.redraw = true) : (u.apply s).redraw = true := by
  cases u with
  | clearScreen | draw => rfl
  | _ => simpa [Update.apply] using hs

/-- An instruction other than CLS and DRW makes an update that leaves redraw flag and frame buffer alone. -/
theorem Update.apply_keeps_screen {u : Update} {i : Instr} (hu : u.MadeBy i) (hcls : i ≠ .cls)
    (hdrw : ∀ x y n, i ≠ .drw x y n) (s : State) : (u.apply s).redraw = s.redraw ∧ (u.apply s).fb = s.fb := by
  cases u with
  | clearScreen => exact absurd hu hcls
  | draw =>
    obtain ⟨x, y, n, hi⟩ := hu
    exact absurd hi (hdrw x y n)
  | _ => simp [Update.apply]

/-- Settles O33: only two updates write the screen, and both set the redraw flag. -/
theorem onlyClearAndDrawTouchTheScreen : Obligations.OnlyClearAndDrawTouchTheScreen := by
  intro i s t h
  obtain ⟨u, hu, rfl⟩ := exec_cases h
  refine ⟨u.apply_keeps_redraw_set, fun hcls hdrw => ?_⟩
  obtain ⟨hredraw, hfb⟩ := u.apply_keeps_screen hu hcls hdrw s
  exact ⟨hredraw, fun k => by rw [State.pixel, hfb, State.pixel]⟩

/-! ### The special state (R26) -/

section
variable {u : Update} {i : Instr} {s : State} (hu : u.MadeBy i)
include hu

theorem Update.index_writers (h : (u.apply s).i ≠ s.i) : (∃ nnn, i = .ldI nnn) ∨ ∃ x, i = .addI x ∨ i = .ldF x := by
  cases u with
  | setIndex => exact hu
  | _ => simp [Update.apply] at h

theorem Update.sp_writers (h : (u.apply s).sp ≠ s.sp) : i = .ret ∨ ∃ nnn, i = .call nnn := by
  cases u with
  | pop => exact .inl hu
  | call => exact .inr hu.1
  | _ => simp [Update.apply] at h

theorem Update.stack_writers (h : (u.apply s).stack ≠ s.stack) : ∃ nnn, i = .call nnn := by
  cases u with
  | call => exact hu.1
  | _ => simp [Update.apply] at h

theorem Update.delay_writers (h : (u.apply s).dt ≠ s.dt) : ∃ x, i = .ldDtVx x := by
  cases u with
  | setDelay => exact hu
  | _ => simp [Update.apply] at h

theorem Update.sound_writers (h : (u.apply s).st ≠ s.st) : ∃ x, i = .ldStVx x := by
  cases u with
  | setSound => exact hu
  | _ => simp [Update.apply] at h

theorem Update.memory_writers (h : (u.apply s).mem ≠ s.mem) : ∃ x, i = .ldB x ∨ i = .storeRegs x := by
  cases u with
  | store => exact hu.1
  | _ => simp [Update.apply] at h

theorem Update.draws_writers (h : (u.apply s).draws ≠ s.draws) : ∃ x nn, i = .rnd x nn := by
  cases u with
  | random x => exact ⟨x, hu⟩
  | _ => simp [Update.apply] at h

end

/-- Settles O44: the writers of each part, by the update the instruction makes. -/
theorem onlyTheseInstructionsWriteSpecialState : Obligations.OnlyTheseInstructionsWriteSpecialState := by
  intro i s t h
  have hhost := exec_keeps_host_state i s t h
  obtain ⟨u, hu, rfl⟩ := exec_cases h
  exact ⟨u.index_writers hu, u.sp_writers hu, u.stack_writers hu, u.delay_writers hu, u.sound_writers hu,
    u.memory_writers hu, u.draws_writers hu, hhost⟩

/-! ### Sound timer, redraw flag and frame buffer are not read (R17, R112) -/

theorem writeBytes_withOutputs (s : State) (a : Nat) (l : List Byte) (b : Byte) (r : Bool) (f : FrameBuffer) :
    (s.withOutputs b r f).writeBytes a l = (s.writeBytes a l).withOutputs b r f := by
  induction l generalizing s a with
  | nil => rfl
  | cons c rest ih => exact ih (s.writeByte a c) (a + 1)

theorem flipPixel_of_lit {s : State} {k : Nat} (h : s.pixel k = 1) :
    s.flipPixel k = (s.setReg VF 1).setPixel k (1 - s.pixel k) := by
  rw [State.flipPixel, if_pos h]

theorem flipPixel_of_unlit {s : State} {k : Nat} (h : s.pixel k ≠ 1) :
    s.flipPixel k = s.setPixel k (1 - s.pixel k) := by
  rw [State.flipPixel, if_neg h]

theorem flipPixel_with_sound_redraw (s : State) (k : Nat) (b : Byte) (r : Bool) :
    ({ s with st := b, redraw := r } : State).flipPixel k = { s.flipPixel k with st := b, redraw := r } := by
  by_cases hp : s.pixel k = 1
  · rw [flipPixel_of_lit hp]
    exact flipPixel_of_lit (s := { s with st := b, redraw := r }) hp
  · rw [flipPixel_of_unlit hp]
    exact flipPixel_of_unlit (s := { s with st := b, redraw := r }) hp

theorem foldl_flipPixel_with_sound_redraw (l : List Nat) (s : State) (b : Byte) (r : Bool) :
    l.foldl State.flipPixel { s with st := b, redraw := r } =
      { l.foldl State.flipPixel s with st := b, redraw := r } := by
  induction l generalizing s with
  | nil => rfl
  | cons k rest ih => rw [List.foldl_cons, List.foldl_cons, flipPixel_with_sound_redraw, ih]

theorem drawSprite_with_sound_redraw (s : State) (x0 y0 n : Nat) (b : Byte) (r : Bool) :
    ({ s with st := b, redraw := r } : State).drawSprite x0 y0 n = { s.drawSprite x0 y0 n with st := b } :=
  congrArg (State.setRedraw · true) (foldl_flipPixel_with_sound_redraw (s.spriteCells x0 y0 n) (s.setReg VF 0) b r)

/-- No update reads the sound timer or the redraw flag. -/
theorem Update.apply_ignores_sound_redraw (u : Update) (s : State) (b : Byte) (r : Bool) :
    u.apply s = { u.apply { s with st := b, redraw := r } with st := (u.apply s).st, redraw := (u.apply s).redraw } := by
  cases u with
  | skip c => cases c <;> rfl
  | store a l =>
    have h := writeBytes_withOutputs s a l b r s.fb
    simp only [Update.apply]
    rw [State.withOutputs] at h
    rw [h, State.withOutputs, ← State.writeBytes_fb s a l]
  | draw x0 y0 n =>
    simp only [Update.apply]
    rw [drawSprite_with_sound_redraw s x0 y0 n b r]
  | _ => rfl

/-- Only a draw reads the frame buffer. -/
theorem Update.apply_ignores_frame_buffer {u : Update} (hu : ∀ x0 y0 n, u ≠ .draw x0 y0 n) (s : State)
    (f : FrameBuffer) : u.apply s = { u.apply { s with fb := f } with fb := (u.apply s).fb } := by
  cases u with
  | skip c => cases c <;> rfl
  | store a l =>
    have h := writeBytes_withOutputs s a l s.st s.redraw f
    simp only [Update.apply]
    rw [State.withOutputs] at h
    rw [h, State.withOutputs, ← State.writeBytes_st s a l, ← State.writeBytes_redraw s a l]
  | draw x0 y0 n => exact absurd rfl (hu x0 y0 n)
  | _ => rfl

/-- Settles O34: an update is chosen without reading these parts, and only a draw's effect depends on one, the frame buffer. -/
theorem screenAndSoundAreNotRead : Obligations.ScreenAndSoundAreNotRead := by
  intro i s t h
  obtain ⟨u, hu, hrun⟩ := exec_runs_update i s
  obtain rfl : u.apply s = t := by simpa [h] using (exec_eq_apply hrun).symm
  refine ⟨fun b r => ⟨_, hrun b r s.fb, u.apply_ignores_sound_redraw s b r⟩, fun f hdrw => ?_⟩
  have hdraw : ∀ x0 y0 n, u ≠ .draw x0 y0 n := by
    rintro x0 y0 n rfl
    obtain ⟨x, y, n, hi⟩ := hu
    exact hdrw x y n hi
  exact ⟨_, hrun s.st s.redraw f, u.apply_ignores_frame_buffer hdraw s f⟩

end Sys2Proof.Machine
end

section
/-! The invariant of every reachable state (R13, R18, R19, R66, R151): it holds at construction, a step keeps it because
each update of an instruction does, and so does every other call of the host. -/

namespace Sys2Proof.Machine

/-! ### Construction (R180) -/

theorem unlistedByte_outside_glyphs (cfg : Config) {a : Nat} (h : a < 0x050 ∨ 0x09F < a) : unlistedByte cfg a = 0 :=
  if_neg (by omega)

theorem unlistedByte_glyph {cfg : Config} {j : Nat} {b : Byte} (hcfg : cfg.wellFormed = true)
    (hj : cfg.glyphTable[j]? = some b) : unlistedByte cfg (0x050 + j) = b := by
  have hlen : cfg.glyphTable.length = 80 := by simpa [Config.wellFormed] using hcfg
  have hlt : j < cfg.glyphTable.length := (List.getElem?_eq_some_iff.1 hj).1
  rw [unlistedByte, if_pos (by omega), Nat.add_sub_cancel_left, List.getD_eq_getElem?_getD, hj, Option.getD_some]

theorem construct_readByte (cfg : Config) (a : Nat) : (State.construct cfg).readByte a = unlistedByte cfg a := rfl

theorem construct_pixel (cfg : Config) (k : Nat) : (State.construct cfg).pixel k = 0 := rfl

theorem construct_reg (cfg : Config) (r : Reg) : (State.construct cfg).reg r = 0 := by
  simp [State.reg, State.construct]

theorem construct_stack (cfg : Config) (k : Fin 16) : (State.construct cfg).stack[k] = 0 := by
  simp [State.construct]

theorem construct_keys (cfg : Config) (k : Fin 16) : (State.construct cfg).keys[k] = false := by
  simp [State.construct]

/-- Settles O50: the fields as constructed, and unlisted bytes for the memory. -/
theorem constructionValues : Obligations.ConstructionValues := by
  refine ⟨rfl, ?_⟩
  rintro cfg _ rfl
  exact ⟨construct_reg cfg, rfl, rfl, fun _ => unlistedByte_outside_glyphs cfg, fun _ _ => unlistedByte_glyph, rfl,
    construct_stack cfg, rfl, rfl, construct_pixel cfg, construct_keys cfg, rfl, rfl, rfl, rfl⟩

theorem construct_inv (cfg : Config) : (State.construct cfg).Inv where
  mem := cellsWf_nil _ _
  fb := cellsWf_nil _ _
  bits _ := .inl rfl
  pc := show (0x200 : Word).toNat ≤ 0x10FE by decide
  stack k := by rw [construct_stack]; decide
  latch := fun h => absurd rfl h
  reply := fun e h => nomatch h

/-- Settles O51: no cell is listed, pc is 0x200, stack and latch are empty. -/
theorem invariantHoldsAtConstruction : Obligations.InvariantHoldsAtConstruction :=
  ⟨construct_inv _, construct_inv⟩

/-! ### What keeps the invariant -/

/-- A transition that leaves memory, frame buffer, stack, latch and load alone keeps the invariant when pc stays in range and
no error is reported anew. -/
theorem State.Inv.of_frame {s t : State} (h : s.Inv) (hcfg : t.cfg = s.cfg) (hmem : t.mem = s.mem) (hfb : t.fb = s.fb)
    (hstack : t.stack = s.stack) (hfault : t.fault = s.fault) (hloaded : t.loaded = s.loaded)
    (hreply : ∀ e, t.reply = .error e → s.reply = .error e) (hpc : t.pc.toNat ≤ 0x10FE) : t.Inv where
  mem := by rw [hcfg, hmem]; exact h.mem
  fb := by rw [hfb]; exact h.fb
  bits k := by rw [State.pixel, hfb]; exact h.bits k
  pc := hpc
  stack k := by simp only [hstack]; exact h.stack k
  latch := by rw [hfault, hloaded]; exact h.latch
  reply e he := by rw [hfault]; exact h.reply e (hreply e he)

/-- A transition that also leaves pc and the outcome alone keeps the invariant: it speaks of nothing else. -/
theorem State.Inv.of_unrelated {s t : State} (h : s.Inv) (hcfg : t.cfg = s.cfg) (hmem : t.mem = s.mem)
    (hfb : t.fb = s.fb) (hstack : t.stack = s.stack) (hfault : t.fault = s.fault) (hloaded : t.loaded = s.loaded)
    (hreply : t.reply = s.reply) (hpc : t.pc = s.pc) : t.Inv :=
  h.of_frame hcfg hmem hfb hstack hfault hloaded (fun _ => hreply.symm.trans) (hpc ▸ h.pc)

/-- A raised error keeps the invariant of a loaded core (R151). -/
theorem State.Inv.raiseAt {s : State} (h : s.Inv) (hl : s.loaded = true) {w : Word} (hw : w.toNat ≤ 0x10FE)
    (e : StepError) : (s.raiseAt w e).Inv :=
  { h with pc := hw, latch := fun _ => hl, reply := fun _ he => by cases he; rfl }

/-- A block written inside memory keeps the invariant (R18). -/
theorem State.Inv.writeBytes {s : State} (h : s.Inv) {a : Nat} {l : List Byte} (hle : a + l.length ≤ 4096) :
    (s.writeBytes a l).Inv := by
  rw [s.writeBytes_eq a l]
  exact { h with mem := s.writeBytes_wf a l hle h.mem }

/-- A cleared screen keeps the invariant (R19). -/
theorem State.Inv.clearPixels {s : State} (h : s.Inv) : s.clearPixels.Inv :=
  { h with fb := cellsWf_nil _ _, bits := fun _ => .inl rfl }

theorem State.Inv.setRedraw {s : State} (h : s.Inv) (b : Bool) : (s.setRedraw b).Inv :=
  h.of_unrelated rfl rfl rfl rfl rfl rfl rfl rfl

/-- A return address pushed keeps the invariant (R66, R68). -/
theorem State.Inv.pushPc {s : State} (h : s.Inv) (hpc : s.pc.toNat ≤ 0x1000) (k : Fin 16) : (s.pushPc k).Inv :=
  { h with
    stack := fun j => by
      simp only [State.pushPc_stack, Fin.getElem_fin, Vector.getElem_set]
      split
      · exact hpc
      · exact h.stack j }

theorem State.Inv.jump {s : State} (h : s.Inv) {w : Word} (hw : w.toNat ≤ 0x10FE) : (s.jump w).Inv :=
  h.of_frame rfl rfl rfl rfl rfl rfl (fun _ => id) hw

/-- A skip over the instruction after a fetched one keeps the invariant (R13). -/
theorem State.Inv.skipIf {s : State} (h : s.Inv) (hpc : s.pc.toNat ≤ 0x1000) (c : Bool) : (s.skipIf c).Inv := by
  cases c with
  | false => exact h
  | true =>
    have hw : (s.pc + 2).toNat ≤ 0x10FE := by bv_omega
    exact h.jump hw

/-- A return keeps the invariant: the entry popped is a legal pc (R66). -/
theorem State.Inv.popPc {s : State} (h : s.Inv) (k : Fin 16) : (s.popPc k).Inv :=
  have hw : s.stack[k].toNat ≤ 0x10FE := Nat.le_trans (h.stack k) (by decide)
  h.of_frame rfl rfl rfl rfl rfl rfl (fun _ => id) hw

/-- A sprite drawn keeps every cell 0 or 1 and the frame buffer canonical (R19, R110). -/
theorem State.Inv.drawSprite {s : State} (h : s.Inv) (x0 y0 : Nat) (n : Fin 16) : (s.drawSprite x0 y0 n.val).Inv where
  mem := by simpa using h.mem
  fb := (s.setReg VF 0).foldl_flipPixel_wf _ (fun k hk => s.spriteCells_lt _ _ _ k hk) h.fb
  bits k := by
    rw [pixel_drawSprite s x0 y0 n.val (by omega) h.fb]
    split
    · obtain hk | hk := h.bits k <;> simp [hk]
    · exact h.bits k
  pc := by simpa using h.pc
  stack := by simpa using h.stack
  latch := by simpa using h.latch
  reply := by simpa using h.reply

/-- Every update an instruction makes keeps the invariant, in a loaded core whose pc a fetch has advanced (R48). -/
theorem Update.apply_inv {u : Update} {i : Instr} {s : State} (hu : u.MadeBy i) (h : s.Inv) (hl : s.loaded = true)
    (hpc2 : 2 ≤ s.pc.toNat) (hpc : s.pc.toNat ≤ 0x1000) : (u.apply s).Inv := by
  have hipc : s.ipc.toNat ≤ 0x10FE := by
    rw [State.ipc]
    bv_omega
  cases u with
  | jump target => exact h.jump hu
  | skip c => exact h.skipIf hpc c
  | pop k => exact h.popPc k
  | call k target => exact (h.pushPc hpc k).jump hu.2
  | store a l => exact h.writeBytes hu.2
  | clearScreen => exact h.clearPixels.setRedraw true
  | draw x0 y0 n => exact h.drawSprite x0 y0 n
  | awaitKey => exact h.of_frame rfl rfl rfl rfl rfl rfl (fun _ he => nomatch he) hipc
  | raise e => exact h.raiseAt hl hipc e
  | loadBlock x =>
    exact h.of_unrelated (s.loadBlock_cfg x) (s.loadBlock_mem x) (s.loadBlock_fb x) (s.loadBlock_stack x)
      (s.loadBlock_fault x) (s.loadBlock_loaded x) (s.loadBlock_reply x) (s.loadBlock_pc x)
  | _ => exact h.of_unrelated rfl rfl rfl rfl rfl rfl rfl rfl

/-! ### Steps and runs -/

theorem fetched_pc_toNat {s : State} (hpc : s.pc.toNat ≤ 0xFFE) : s.fetched.pc.toNat = s.pc.toNat + 2 := by
  rw [State.fetched_pc]
  bv_omega

/-- A fetch in bounds keeps the invariant (R48, R49). -/
theorem State.Inv.fetched {s : State} (h : s.Inv) (hpc : s.pc.toNat ≤ 0xFFE) : s.fetched.Inv :=
  h.of_frame rfl rfl rfl rfl rfl rfl (fun _ he => nomatch he) (by rw [fetched_pc_toNat hpc]; omega)

/-- Settles O52, by the cases of a step: the latched error again, the fetch error, an update, an unmatched word. -/
theorem stepKeepsTheInvariant : Obligations.StepKeepsTheInvariant := by
  intro s t h hstep
  obtain ⟨hl, ⟨e, he, rfl⟩ | ⟨-, -, rfl⟩ | ⟨-, hpc, i, -, hi⟩ | ⟨-, hpc, e, -, rfl⟩⟩ := step_cases s t hstep
  · exact { h with reply := fun _ hr => by cases hr; exact he }
  · exact h.raiseAt hl h.pc _
  · obtain ⟨u, hu, rfl⟩ := exec_cases hi
    have hpc' := fetched_pc_toNat hpc
    exact u.apply_inv hu (h.fetched hpc) hl (by omega) (by omega)
  · obtain ⟨-, hu⟩ | ⟨-, hu⟩ := unmatched_cases s s.fetchWord <;> rw [hu]
    · exact h.fetched hpc
    · exact (h.fetched hpc).raiseAt hl (by rw [State.ipc_fetched]; exact h.pc) _

/-- A load keeps the invariant: the image ends at 0xFFF at the latest (R182). -/
theorem State.Inv.loadProgram {source : Option (List Byte)} {s t : State} (h : s.Inv)
    (hload : loadProgram source s = .next t) : t.Inv := by
  obtain ⟨-, ⟨-, rfl⟩ | ⟨bytes, -, hw, rfl⟩ | ⟨bytes, -, -, rfl⟩⟩ := loadProgram_cases hload
  · exact h.of_frame rfl rfl rfl rfl rfl rfl (fun _ he => nomatch he) h.pc
  · have hlen : bytes.length ≤ 3584 := of_decide_eq_true hw
    have hstored : (s.writeBytes 0x200 bytes).Inv := h.writeBytes (by omega)
    exact { hstored with latch := fun _ => rfl, reply := fun _ he => nomatch he }
  · exact h.of_frame rfl rfl rfl rfl rfl rfl (fun _ he => nomatch he) h.pc

/-- Every call of the host that is a move keeps the invariant (R170). -/
theorem State.Inv.hostAct {a : HostAction} {s t : State} (h : s.Inv) (hact : hostAct a s = .next t) : t.Inv := by
  cases a with
  | load source => exact h.loadProgram hact
  | step => exact stepKeepsTheInvariant s t h hact
  | tick =>
    cases hact
    exact h.of_frame rfl rfl rfl rfl rfl rfl (fun _ he => nomatch he) h.pc
  | setKey k b =>
    obtain ⟨-, rfl⟩ := setKey_cases hact
    exact h.of_unrelated rfl rfl rfl rfl rfl rfl rfl rfl
  | clearRedraw =>
    cases hact
    exact h.setRedraw false
  | read =>
    cases hact
    exact h

/-- Settles O53: each call keeps the invariant, and so does a run by induction over its calls. -/
theorem hostRunKeepsTheInvariant : Obligations.HostRunKeepsTheInvariant := by
  intro calls s t h hrun
  exact hostRun_relates (R := fun s t => s.Inv → t.Inv) (fun _ => id) (fun _ _ _ hst htu => htu ∘ hst)
    (fun _ _ _ _ hact h => h.hostAct hact) hrun h

/-! ### The latch (R23, R153) -/

/-- A call of the host other than step leaves the latch alone. -/
theorem hostAct_fault_of_ne_step {a : HostAction} {s t : State} (ha : a ≠ .step) (h : hostAct a s = .next t) :
    t.fault = s.fault := by
  cases a with
  | step => exact absurd rfl ha
  | load source =>
    obtain ⟨-, ⟨-, rfl⟩ | ⟨bytes, -, -, rfl⟩ | ⟨bytes, -, -, rfl⟩⟩ := loadProgram_cases h
    · rfl
    · simp
    · rfl
  | setKey k b =>
    obtain ⟨-, rfl⟩ := setKey_cases h
    rfl
  | tick | clearRedraw | read =>
    cases h
    rfl

/-- Settles O12: every call keeps a latched error, only a step can set one, and a latched step returns it. -/
theorem latchHoldsForever : Obligations.LatchHoldsForever :=
  ⟨rfl, fun _ _ _ e h => (hostAct_keepsParametersLoadAndLatch h).latch e, fun _ _ _ => hostAct_fault_of_ne_step,
    step_of_latched⟩

/-! ### The snapshot (R26) -/

/-- Settles O49: entry by entry of the two lists the snapshot maps out. -/
theorem snapshotShowsEveryCell : Obligations.SnapshotShowsEveryCell := by
  intro s
  refine ⟨fun a ha => ?_, ?_, fun k hk => ?_, ?_, fun r => rfl⟩
  · simp [State.snapshot, ha]
  · simp [State.snapshot]
  · simp [State.snapshot, hk]
  · simp [State.snapshot]

end Sys2Proof.Machine
end

section
/-! The instructions that touch memory at I (R35, R110, R137 to R139): each raises at the first address above 0xFFF or
makes its one update, and what a block stored, or loaded, holds afterwards. -/

namespace Sys2Proof.Machine

/-! ### The bound check decides which path an instruction takes (R35) -/

theorem dataFault_of_inBounds {s : State} {len : Nat} (h : s.i.toNat + len ≤ 0x1000) : s.dataFault len = none := by
  rw [State.dataFault, firstBadAddress_eq, if_pos (.inr h)]

theorem dataFault_of_outOfBounds {s : State} {len : Nat} (hlen : len ≠ 0) (h : 0x1000 < s.i.toNat + len) :
    s.dataFault len = some (max s.i.toNat 0x1000) := by
  rw [State.dataFault, firstBadAddress_eq, if_neg (by omega)]

section
variable {s : State} {x y : Reg} {n : Fin 16} {a : Nat}

theorem exec_drw_of_fault (h : s.dataFault n.val = some a) :
    exec (.drw x y n) s = .next (s.erred (.dataOutOfBounds (s.pc - 2) (encode (.drw x y n)) a)) := by
  rw [exec, execDrw, h]
  rfl

theorem exec_ldB_of_fault (h : s.dataFault 3 = some a) :
    exec (.ldB x) s = .next (s.erred (.dataOutOfBounds (s.pc - 2) (encode (.ldB x)) a)) := by
  rw [exec, execLdB, h]
  rfl

theorem exec_storeRegs_of_fault (h : s.dataFault (x.val + 1) = some a) :
    exec (.storeRegs x) s = .next (s.erred (.dataOutOfBounds (s.pc - 2) (encode (.storeRegs x)) a)) := by
  rw [exec, execStoreRegs, h]
  rfl

theorem exec_loadRegs_of_fault (h : s.dataFault (x.val + 1) = some a) :
    exec (.loadRegs x) s = .next (s.erred (.dataOutOfBounds (s.pc - 2) (encode (.loadRegs x)) a)) := by
  rw [exec, execLoadRegs, h]
  rfl

theorem exec_ldB_of_inBounds (h : s.i.toNat + 2 ≤ 0xFFF) :
    exec (.ldB x) s = .next (s.writeBytes s.i.toNat (bcdDigits (s.reg x))) := by
  rw [exec, execLdB, dataFault_of_inBounds (by omega)]

theorem exec_storeRegs_of_inBounds (h : s.i.toNat + x.val ≤ 0xFFF) :
    exec (.storeRegs x) s = .next (s.writeBytes s.i.toNat (s.regBlock x)) := by
  rw [exec, execStoreRegs, dataFault_of_inBounds (by omega)]

theorem exec_loadRegs_of_inBounds (h : s.i.toNat + x.val ≤ 0xFFF) : exec (.loadRegs x) s = .next (s.loadBlock x) := by
  rw [exec, execLoadRegs, dataFault_of_inBounds (by omega)]

end

/-! ### What the blocks hold -/

theorem bcdDigits_length (b : Byte) : (bcdDigits b).length = 3 := rfl

theorem regBlock_getElem? {s : State} {x r : Reg} (h : r ≤ x) : (s.regBlock x)[r.val]? = some (s.reg r) := by
  rw [State.regBlock, List.getElem?_take_of_lt (Nat.lt_succ_of_le h)]
  simp [State.reg]

/-- A block of registers stored in memory is read back, register by register (R138). -/
theorem readByte_writeBytes_regBlock {s : State} {a : Nat} {x r : Reg} (hmem : Memory.wf s.cfg s.mem)
    (ha : a + x.val ≤ 0xFFF) (h : r ≤ x) : (s.writeBytes a (s.regBlock x)).readByte (a + r.val) = s.reg r :=
  s.readByte_writeBytes_same a r.val _ _ (by rw [regBlock_length]; omega) hmem (regBlock_getElem? h)

/-- A number below 256 stored as a byte of a block is read back as that number. -/
theorem readByte_writeBytes_ofNat {s : State} {a j d : Nat} {l : List Byte} (hmem : Memory.wf s.cfg s.mem)
    (ha : a + l.length ≤ 4096) (hd : d < 256) (hj : l[j]? = some (BitVec.ofNat 8 d)) :
    ((s.writeBytes a l).readByte (a + j)).toNat = d := by
  rw [s.readByte_writeBytes_same a j _ l ha hmem hj, BitVec.toNat_ofNat, Nat.mod_eq_of_lt hd]

/-- A block load changes V0 to VX alone (R139). -/
theorem loadBlock_changes (s : State) (x : Reg) :
    ChangesOnly (fun p => ∃ r : Reg, r ≤ x ∧ p = .reg r) s (s.loadBlock x) := by
  intro p hp
  cases p
  case reg r =>
    have hr : ¬ r ≤ x := fun h => hp ⟨r, h, rfl⟩
    rw [Part.Same, State.reg_loadBlock, if_neg hr]
  all_goals simp [Part.Same, State.readByte, State.pixel]

/-- The opcode of two bytes is not cut to 16 bits (R45). -/
theorem wordOfBytes_toNat (hi lo : Byte) : (wordOfBytes hi lo).toNat = hi.toNat * 256 + lo.toNat := by
  rw [wordOfBytes, BitVec.toNat_ofNat]
  omega

/-! ### The statements -/

/-- Settles O43: both bytes of the opcode at pc are bytes of the block stored, and the store leaves pc alone. -/
theorem storedBytesAreFetchedNext : Obligations.StoredBytesAreFetchedNext := by
  intro x r s hmem hin hr hpc
  refine ⟨_, exec_storeRegs_of_inBounds hin, fun q hq => ?_⟩
  have hrx : r ≤ x := Nat.le_of_succ_le hr
  have hqx : q ≤ x := Nat.le_trans (Nat.le_of_eq hq) hr
  have hhigh := readByte_writeBytes_regBlock hmem hin hrx
  have hlow := readByte_writeBytes_regBlock hmem hin hqx
  rw [State.fetchWord, wordOfBytes_toNat, State.writeBytes_pc, hpc, hhigh, Nat.add_assoc, ← hq, hlow]

/-- Settles O31: the bound check finds an offending address, the first of them. -/
theorem drawOutsideMemoryRaises : Obligations.DrawOutsideMemoryRaises :=
  fun _ _ _ _ hn hout => ⟨_, rfl, exec_drw_of_fault (dataFault_of_outOfBounds hn hout)⟩

/-- Settles O39: the digits stored are read back and each fits a byte, or the bound check finds an offending address. -/
theorem bcdStoresThreeDigits : Obligations.BcdStoresThreeDigits := by
  intro x s hmem
  refine ⟨fun hin => ?_, fun hout => exec_ldB_of_fault (dataFault_of_outOfBounds (by decide) (by omega))⟩
  have hle : s.i.toNat + (bcdDigits (s.reg x)).length ≤ 4096 := by
    rw [bcdDigits_length]
    omega
  refine ⟨_, exec_ldB_of_inBounds hin, ?hundreds, ?tens, ?units, ?frame⟩
  case hundreds => exact readByte_writeBytes_ofNat (j := 0) hmem hle (by omega) rfl
  case tens => exact readByte_writeBytes_ofNat (j := 1) hmem hle (by omega) rfl
  case units => exact readByte_writeBytes_ofNat (j := 2) hmem hle (by omega) rfl
  case frame => exact writeBytes_changes s _ _ _ fun j hj => ⟨j, hj, rfl⟩

/-- Settles O40: the block stored is read back, or the bound check finds an offending address. -/
theorem storeWritesRegistersToMemory : Obligations.StoreWritesRegistersToMemory := by
  intro x s hmem
  refine ⟨fun hin => ⟨_, exec_storeRegs_of_inBounds hin, fun r => readByte_writeBytes_regBlock hmem hin, ?_⟩,
    fun hout => exec_storeRegs_of_fault (dataFault_of_outOfBounds (by omega) (by omega))⟩
  refine writeBytes_changes s _ _ _ fun j hj => ?_
  rw [regBlock_length] at hj
  exact ⟨⟨j, by omega⟩, Nat.le_of_lt_succ hj, rfl⟩

/-- Settles O41: the block load reads V0 to VX and nothing else, or the bound check finds an offending address. -/
theorem loadReadsRegistersFromMemory : Obligations.LoadReadsRegistersFromMemory := by
  intro x s
  refine ⟨fun hin => ⟨_, exec_loadRegs_of_inBounds hin, fun r hr => ?_, loadBlock_changes s x⟩,
    fun hout => exec_loadRegs_of_fault (dataFault_of_outOfBounds (by omega) (by omega))⟩
  rw [State.reg_loadBlock, if_pos hr]

end Sys2Proof.Machine
end

section
/-! The encoding (R45 to R55): the fields of a word and the word of its fields, one walk through the
encoder and one through the decoder, and from them that decode, encode and the opcode table agree. -/

namespace Sys2Proof

/-! ### The fields of a word (R46) -/

theorem opField_lt (w : Word) : opField w < 16 := by
  unfold opField
  omega

theorem xField_val (w : Word) : (xField w).val = w.toNat / 0x100 % 16 := rfl

theorem yField_val (w : Word) : (yField w).val = w.toNat / 0x10 % 16 := rfl

theorem nField_val (w : Word) : (nField w).val = w.toNat % 16 := rfl

theorem nnField_toNat (w : Word) : (nnField w).toNat = w.toNat % 256 := BitVec.toNat_ofNat w.toNat 8

theorem nnnField_toNat (w : Word) : (nnnField w).toNat = w.toNat % 4096 := BitVec.toNat_ofNat w.toNat 12

/-! ### The fields of a word in each format of R47 -/

section
variable {w : Word} {x y : Reg} {nn : Byte} {nnn : Addr12} {op f : Nat}

theorem fields_of_wordNNN (h : w.toNat = f + nnn.toNat) (hf : f % 0x1000 = 0) :
    opField w = f / 0x1000 ∧ nnnField w = nnn := by
  refine ⟨?_, BitVec.eq_of_toNat_eq ?_⟩
  · unfold opField
    omega
  · rw [nnnField_toNat]
    omega

theorem fields_of_wordFX (h : w.toNat = wordFX op x f) (hf : f < 256) :
    opField w = op ∧ xField w = x ∧ (nnField w).toNat = f := by
  unfold wordFX at h
  refine ⟨?_, Fin.ext ?_, ?_⟩
  · unfold opField
    omega
  · rw [xField_val]
    omega
  · rw [nnField_toNat]
    omega

theorem fields_of_wordFI (h : w.toNat = wordFI op x nn) : opField w = op ∧ xField w = x ∧ nnField w = nn := by
  obtain ⟨hop, hx, hnn⟩ := fields_of_wordFX h nn.isLt
  exact ⟨hop, hx, BitVec.eq_of_toNat_eq hnn⟩

theorem fields_of_wordFR (h : w.toNat = wordFR op x y f) (hf : f < 16) :
    opField w = op ∧ xField w = x ∧ yField w = y ∧ (nField w).val = f := by
  unfold wordFR at h
  refine ⟨?_, Fin.ext ?_, Fin.ext ?_, ?_⟩
  · unfold opField
    omega
  · rw [xField_val]
    omega
  · rw [yField_val]
    omega
  · rw [nField_val]
    omega

/-- A word with digit op of a row of format FI is its pattern with the word's fields filled in; likewise below. -/
theorem toNat_eq_wordFI (hop : opField w = op) : w.toNat = wordFI op (xField w) (nnField w) := by
  rw [← hop, wordFI, opField, xField_val, nnField_toNat]
  omega

theorem toNat_eq_wordFR (hop : opField w = op) (hf : (nField w).val = f) :
    w.toNat = wordFR op (xField w) (yField w) f := by
  rw [← hop, ← hf, wordFR, opField, xField_val, yField_val, nField_val]
  omega

theorem toNat_eq_wordFX (hop : opField w = op) (hf : (nnField w).toNat = f) : w.toNat = wordFX op (xField w) f :=
  hf ▸ toNat_eq_wordFI hop

theorem toNat_eq_wordNNN (hop : opField w = f / 0x1000) (hf : f % 0x1000 = 0) : w.toNat = f + (nnnField w).toNat := by
  rw [nnnField_toNat]
  unfold opField at hop
  omega

end

/-! ### Encode, then decode -/

/-- No instruction's word is cut to 16 bits (R54): the family WordShape, put together. -/
theorem encode_toNat (i : Instr) : (encode i).toNat = encodeNat i :=
  match i with
  | .cls => Laws.WordShape.cls
  | .ret => Laws.WordShape.ret
  | .jp nnn => Laws.WordShape.jp nnn
  | .call nnn => Laws.WordShape.call nnn
  | .seImm x nn => Laws.WordShape.seImm x nn
  | .sneImm x nn => Laws.WordShape.sneImm x nn
  | .seReg x y => Laws.WordShape.seReg x y
  | .ldImm x nn => Laws.WordShape.ldImm x nn
  | .addImm x nn => Laws.WordShape.addImm x nn
  | .ldReg x y => Laws.WordShape.ldReg x y
  | .orReg x y => Laws.WordShape.orReg x y
  | .andReg x y => Laws.WordShape.andReg x y
  | .xorReg x y => Laws.WordShape.xorReg x y
  | .addReg x y => Laws.WordShape.addReg x y
  | .subReg x y => Laws.WordShape.subReg x y
  | .shr x y => Laws.WordShape.shr x y
  | .subnReg x y => Laws.WordShape.subnReg x y
  | .shl x y => Laws.WordShape.shl x y
  | .sneReg x y => Laws.WordShape.sneReg x y
  | .ldI nnn => Laws.WordShape.ldI nnn
  | .jpV0 nnn => Laws.WordShape.jpV0 nnn
  | .rnd x nn => Laws.WordShape.rnd x nn
  | .drw x y n => Laws.WordShape.drw x y n
  | .skp x => Laws.WordShape.skp x
  | .sknp x => Laws.WordShape.sknp x
  | .ldVxDt x => Laws.WordShape.ldVxDt x
  | .ldVxK x => Laws.WordShape.ldVxK x
  | .ldDtVx x => Laws.WordShape.ldDtVx x
  | .ldStVx x => Laws.WordShape.ldStVx x
  | .addI x => Laws.WordShape.addI x
  | .ldF x => Laws.WordShape.ldF x
  | .ldB x => Laws.WordShape.ldB x
  | .storeRegs x => Laws.WordShape.storeRegs x
  | .loadRegs x => Laws.WordShape.loadRegs x

/-- The word of an instruction decodes to it, format by format: the fields of the word are the operands. -/
theorem decode_of_toNat_eq {w : Word} {i : Instr} (h : w.toNat = encodeNat i) : decode w = .ok i := by
  cases i with
  | cls | ret =>
    rw [encodeNat] at h
    simp [decode, decodeGroup0, opField, h]
  | jp nnn | call nnn | ldI nnn | jpV0 nnn =>
    obtain ⟨hop, hnnn⟩ := fields_of_wordNNN h rfl
    simp only [decode, hop, hnnn]
  | seImm x nn | sneImm x nn | ldImm x nn | addImm x nn | rnd x nn =>
    obtain ⟨hop, hx, hnn⟩ := fields_of_wordFI h
    simp only [decode, hop, hx, hnn]
  | seReg x y | sneReg x y =>
    obtain ⟨hop, hx, hy, hn⟩ := fields_of_wordFR h (by decide)
    simp [decode, decodeN0, hop, hx, hy, hn]
  | ldReg x y | orReg x y | andReg x y | xorReg x y | addReg x y | subReg x y | shr x y | subnReg x y | shl x y =>
    obtain ⟨hop, hx, hy, hn⟩ := fields_of_wordFR h (by decide)
    simp only [decode, decodeGroup8, hop, hx, hy, hn]
  | drw x y n =>
    obtain ⟨hop, hx, hy, hn⟩ := fields_of_wordFR h n.isLt
    simp only [decode, hop, hx, hy, Fin.ext hn]
  | skp x | sknp x =>
    obtain ⟨hop, hx, hnn⟩ := fields_of_wordFX h (by decide)
    simp only [decode, decodeGroupE, hop, hx, hnn]
  | ldVxDt x | ldVxK x | ldDtVx x | ldStVx x | addI x | ldF x | ldB x | storeRegs x | loadRegs x =>
    obtain ⟨hop, hx, hnn⟩ := fields_of_wordFX h (by decide)
    simp only [decode, decodeGroupF, hop, hx, hnn]

/-! ### Decode, then encode -/

/-- The words R53 lists: no row's fixed digits match them (R51). -/
def UnmatchedWord (w : Word) : Prop :=
  (w.toNat < 0x1000 ∧ w.toNat ≠ 0x00E0 ∧ w.toNat ≠ 0x00EE) ∨
  ((w.toNat / 0x1000 = 0x5 ∨ w.toNat / 0x1000 = 0x9) ∧ w.toNat % 0x10 ≠ 0) ∨
  (w.toNat / 0x1000 = 0x8 ∧ w.toNat % 0x10 ∈ [0x8, 0x9, 0xA, 0xB, 0xC, 0xD, 0xF]) ∨
  (w.toNat / 0x1000 = 0xE ∧ w.toNat % 0x100 ∉ [0x9E, 0xA1]) ∨
  (w.toNat / 0x1000 = 0xF ∧ w.toNat % 0x100 ∉ [0x07, 0x0A, 0x15, 0x18, 0x1E, 0x29, 0x33, 0x55, 0x65])

/-- What a decoder may answer for `w`: where `unmatched` fails, the instruction whose word is `w`; else a rejection. -/
def Answers (w : Word) (unmatched : Prop) (d : Except Reject Instr) : Prop :=
  (¬ unmatched ∧ ∃ i, d = .ok i ∧ w.toNat = encodeNat i) ∨ (unmatched ∧ d = .error (.unmatched w))

section
variable {w : Word} {unmatched : Prop} {i : Instr}

theorem Answers.instr (hu : ¬ unmatched) (h : w.toNat = encodeNat i) : Answers w unmatched (.ok i) :=
  .inl ⟨hu, i, rfl, h⟩

theorem Answers.reject (hu : unmatched) : Answers w unmatched (.error (.unmatched w)) := .inr ⟨hu, rfl⟩

theorem Answers.congr {u : Prop} {d : Except Reject Instr} (h : Answers w u d) (hu : unmatched ↔ u) :
    Answers w unmatched d :=
  propext hu ▸ h

theorem decodeGroup0_answers : Answers w (w.toNat ≠ 0x00E0 ∧ w.toNat ≠ 0x00EE) (decodeGroup0 w) := by
  unfold decodeGroup0
  split
  · next h => exact .instr (by omega) h
  · split
    · next h => exact .instr (by omega) h
    · exact .reject (by omega)

theorem decodeN0_answers (h : (nField w).val = 0 → w.toNat = encodeNat i) :
    Answers w ((nField w).val ≠ 0) (decodeN0 w i) := by
  unfold decodeN0
  split
  · next hn => exact .instr (by omega) (h hn)
  · next hn => exact .reject hn

theorem decodeGroup8_answers (hop : opField w = 0x8) :
    Answers w ((nField w).val ∈ [0x8, 0x9, 0xA, 0xB, 0xC, 0xD, 0xF]) (decodeGroup8 w) := by
  have hlt := (nField w).isLt
  unfold decodeGroup8
  split
  case h_10 =>
    refine .reject ?_
    simp only [List.mem_cons, List.not_mem_nil, or_false]
    grind
  all_goals next hn => exact .instr (by rw [hn]; decide) (toNat_eq_wordFR hop hn)

theorem decodeGroupE_answers (hop : opField w = 0xE) :
    Answers w ((nnField w).toNat ∉ [0x9E, 0xA1]) (decodeGroupE w) := by
  unfold decodeGroupE
  split
  case h_3 => exact .reject (by simp_all)
  all_goals next hnn => exact .instr (by rw [hnn]; decide) (toNat_eq_wordFX hop hnn)

theorem decodeGroupF_answers (hop : opField w = 0xF) :
    Answers w ((nnField w).toNat ∉ [0x07, 0x0A, 0x15, 0x18, 0x1E, 0x29, 0x33, 0x55, 0x65]) (decodeGroupF w) := by
  unfold decodeGroupF
  split
  case h_10 => exact .reject (by simp_all)
  all_goals next hnn => exact .instr (by rw [hnn]; decide) (toNat_eq_wordFX hop hnn)

theorem unmatchedWord_iff_of_opField_zero (hop : opField w = 0) :
    UnmatchedWord w ↔ w.toNat ≠ 0x00E0 ∧ w.toNat ≠ 0x00EE := by
  unfold opField at hop
  have hlt : w.toNat < 0x1000 := by omega
  simp [UnmatchedWord, hop, hlt]

theorem unmatchedWord_iff_of_opField_ne_zero (hop : opField w ≠ 0) :
    UnmatchedWord w ↔
      ((opField w = 0x5 ∨ opField w = 0x9) ∧ (nField w).val ≠ 0) ∨
      (opField w = 0x8 ∧ (nField w).val ∈ [0x8, 0x9, 0xA, 0xB, 0xC, 0xD, 0xF]) ∨
      (opField w = 0xE ∧ (nnField w).toNat ∉ [0x9E, 0xA1]) ∨
      (opField w = 0xF ∧ (nnField w).toNat ∉ [0x07, 0x0A, 0x15, 0x18, 0x1E, 0x29, 0x33, 0x55, 0x65]) := by
  have hge : ¬ w.toNat < 0x1000 := fun h => hop (Nat.div_eq_of_lt h)
  rw [UnmatchedWord, ← opField, ← nField_val, ← nnField_toNat]
  simp only [hge, false_and, false_or]

end

/-- One walk through the decoder, arm by arm (`hop` is the digit op of the arm): a word of R53 is rejected by name,
and every other is the word of the instruction answered. -/
theorem decode_answers (w : Word) : Answers w (UnmatchedWord w) (decode w) := by
  have hu := unmatchedWord_iff_of_opField_ne_zero (w := w)
  unfold decode
  split
  case h_1 hop => exact decodeGroup0_answers.congr (unmatchedWord_iff_of_opField_zero hop)
  case h_2 hop | h_3 hop | h_11 hop | h_12 hop => exact .instr (by simp [hu, hop]) (toNat_eq_wordNNN hop rfl)
  case h_4 hop | h_5 hop | h_7 hop | h_8 hop | h_13 hop => exact .instr (by simp [hu, hop]) (toNat_eq_wordFI hop)
  case h_6 hop | h_10 hop => exact (decodeN0_answers (toNat_eq_wordFR hop)).congr (by simp [hu, hop])
  case h_9 hop => exact (decodeGroup8_answers hop).congr (by simp [hu, hop])
  case h_14 hop => exact .instr (by simp [hu, hop]) (toNat_eq_wordFR hop rfl)
  case h_15 hop => exact (decodeGroupE_answers hop).congr (by simp [hu, hop])
  case h_16 hop => exact (decodeGroupF_answers hop).congr (by simp [hu, hop])
  case h_17 =>
    have hlt := opField_lt w
    grind

/-- The two directions of the encoding in one: a word decodes to `i` exactly when it is the word of `i`. -/
theorem decode_eq_ok_iff {w : Word} {i : Instr} : decode w = .ok i ↔ w.toNat = encodeNat i := by
  refine ⟨fun hi => ?_, decode_of_toNat_eq⟩
  obtain ⟨-, j, hj, hw⟩ | ⟨-, he⟩ := decode_answers w
  · cases hi.symm.trans hj
    exact hw
  · cases hi.symm.trans he

theorem decode_eq_unmatched_iff {w : Word} : decode w = .error (.unmatched w) ↔ UnmatchedWord w := by
  obtain ⟨hu, i, hi, -⟩ | ⟨hu, he⟩ := decode_answers w
  · simp [hu, hi]
  · simp [hu, he]

/-- Settles O1: the word of an instruction is not cut, and its fields are the operands. -/
theorem decodeOfEncodeIsTheInstruction : Obligations.DecodeOfEncodeIsTheInstruction :=
  fun i => decode_of_toNat_eq (encode_toNat i)

/-- Settles O2: each arm of the decoder gives an instruction whose word is the one decoded. -/
theorem encodeOfDecodeIsTheWord : Obligations.EncodeOfDecodeIsTheWord :=
  fun _ i h => BitVec.eq_of_toNat_eq ((encode_toNat i).trans (decode_eq_ok_iff.1 h).symm)

/-- Settles O4: the decoder rejects the words of `UnmatchedWord`, which is R53's list. -/
theorem unmatchedWordsAreExactlyThese : Obligations.UnmatchedWordsAreExactlyThese :=
  fun _ => decode_eq_unmatched_iff

/-! ### The opcode table (R50, R51) -/

/-- The digits every row of a group fixes (R51): all four, op and N, op and NN, or op alone. -/
def groupMask (op : Nat) : Word :=
  match op with
  | 0x0 => 0xFFFF
  | 0x5 | 0x8 | 0x9 => 0xF00F
  | 0xE | 0xF => 0xF0FF
  | _ => 0xF000

theorem opField_groupMask (op : Nat) : opField (groupMask op) = 15 := by
  unfold groupMask
  split <;> rfl

/-- Digit op and the low `j` bits, kept by a mask that ends in `j` ones. -/
theorem and_topDigit_or_low {n j : Nat} (hn : n < 0x10000) (hj : j ≤ 12) :
    n &&& (0xF000 ||| 2 ^ j - 1) = n / 0x1000 * 0x1000 + n % 2 ^ j := by
  have htop : n &&& 0xF000 = 2 ^ 12 * (n / 0x1000) := by
    have hdiv : (n &&& 0xF000) / 2 ^ 12 = n / 2 ^ 12 &&& 2 ^ 4 - 1 := Nat.and_div_two_pow
    have hmod : (n &&& 0xF000) % 2 ^ 12 = n % 2 ^ 12 &&& 0 := Nat.and_mod_two_pow
    rw [Nat.and_two_pow_sub_one_eq_mod] at hdiv
    rw [Nat.and_zero] at hmod
    omega
  have hlow : n % 2 ^ j < 2 ^ 12 :=
    Nat.lt_of_lt_of_le (Nat.mod_lt _ (Nat.two_pow_pos j)) (Nat.pow_le_pow_right (by decide) hj)
  rw [Nat.and_or_distrib_left, htop, Nat.and_two_pow_sub_one_eq_mod, ← Nat.two_pow_add_eq_or_of_lt hlow, Nat.mul_comm]

theorem toNat_and_opMask (w : Word) : (w &&& 0xF000).toNat = opField w * 0x1000 :=
  (and_topDigit_or_low w.isLt (j := 0) (by decide)).trans (by rw [opField, Nat.pow_zero, Nat.mod_one, Nat.add_zero])

theorem toNat_and_opNMask (w : Word) : (w &&& 0xF00F).toNat = opField w * 0x1000 + (nField w).val :=
  and_topDigit_or_low w.isLt (j := 4) (by decide)

theorem toNat_and_opNNMask (w : Word) : (w &&& 0xF0FF).toNat = opField w * 0x1000 + (nnField w).toNat := by
  rw [nnField_toNat]
  exact and_topDigit_or_low w.isLt (j := 8) (by decide)

theorem opField_and_groupMask (w : Word) (op : Nat) : opField (w &&& groupMask op) = opField w := by
  have h : opField (w &&& groupMask op) = opField w &&& opField (groupMask op) := by
    rw [opField, BitVec.toNat_and]
    exact Nat.and_div_two_pow (n := 12)
  rw [h, opField_groupMask]
  exact (Nat.and_two_pow_sub_one_eq_mod _ 4).trans (Nat.mod_eq_of_lt (opField_lt w))

theorem nField_and_groupMask (w : Word) {op : Nat} (h : op = 0x5 ∨ op = 0x9 ∨ op = 0x8) :
    nField (w &&& groupMask op) = nField w := by
  have hmask : groupMask op = 0xF00F := by obtain rfl | rfl | rfl := h <;> rfl
  apply Fin.ext
  rw [hmask, nField_val, toNat_and_opNMask]
  omega

theorem nnField_and_groupMask (w : Word) {op : Nat} (h : op = 0xE ∨ op = 0xF) :
    nnField (w &&& groupMask op) = nnField w := by
  have hmask : groupMask op = 0xF0FF := by obtain rfl | rfl := h <;> rfl
  apply BitVec.eq_of_toNat_eq
  rw [hmask, nnField_toNat, toNat_and_opNNMask]
  omega

/-- A group's fixed digits alone decide whether a word is unmatched. -/
theorem unmatchedWord_and_groupMask (w : Word) : UnmatchedWord (w &&& groupMask (opField w)) ↔ UnmatchedWord w := by
  have hop := opField_and_groupMask w (opField w)
  by_cases h0 : opField w = 0
  · rw [h0, show w &&& groupMask 0 = w from BitVec.and_allOnes]
  · rw [unmatchedWord_iff_of_opField_ne_zero (by rwa [hop]), unmatchedWord_iff_of_opField_ne_zero h0, hop]
    refine or_congr (and_congr_right fun h => ?_) (or_congr (and_congr_right fun h => ?_)
      (or_congr (and_congr_right fun h => ?_) (and_congr_right fun h => ?_)))
    · rw [nField_and_groupMask w (h.imp_right .inl)]
    · rw [nField_and_groupMask w (.inr (.inr h))]
    · rw [nnField_and_groupMask w (.inl h)]
    · rw [nnField_and_groupMask w (.inr h)]

/-- No word has the fixed digits of two rows. -/
theorem row_eq_of_overlap :
    ∀ r ∈ opcodeRows, ∀ r' ∈ opcodeRows, r.value &&& r'.mask = r'.value &&& r.mask → r = r' := by decide

/-- Every row fixes the digits of its group, and its value, the word with every operand 0, decodes. -/
theorem mask_and_decode_of_row :
    ∀ r ∈ opcodeRows, r.mask = groupMask (opField r.value) ∧ (decode r.value).isOk = true := by decide

theorem Row.selects_iff {r : Row} {w : Word} : r.selects w = true ↔ w &&& r.mask = r.value := beq_iff_eq

theorem row_eq_of_selects {r r' : Row} {w : Word} (hr : r ∈ opcodeRows) (hr' : r' ∈ opcodeRows)
    (h : r.selects w = true) (h' : r'.selects w = true) : r = r' := by
  rw [Row.selects_iff] at h h'
  apply row_eq_of_overlap r hr r' hr'
  rw [← h, ← h', BitVec.and_assoc, BitVec.and_assoc, BitVec.and_comm r.mask]

/-- A word that a row selects decodes: it has the row's digits, and those of a word that decodes. -/
theorem exists_decode_of_selects {r : Row} {w : Word} (hr : r ∈ opcodeRows) (h : r.selects w = true) :
    ∃ i, decode w = .ok i := by
  rw [Row.selects_iff] at h
  obtain ⟨hmask, hok⟩ := mask_and_decode_of_row r hr
  have hop : opField r.value = opField w := by
    rw [← h, hmask, opField_and_groupMask]
  obtain ⟨-, i, hi, -⟩ | ⟨hu, -⟩ := decode_answers w
  · exact ⟨i, hi⟩
  · rw [← unmatchedWord_and_groupMask, ← hop, ← hmask, h, ← decode_eq_unmatched_iff] at hu
    simp [hu, Except.isOk, Except.toBool] at hok

theorem and_opMask {w : Word} {op : Nat} (hop : opField w = op) : w &&& 0xF000 = BitVec.ofNat 16 (op * 0x1000) := by
  rw [← hop, ← toNat_and_opMask, BitVec.ofNat_toNat, BitVec.setWidth_eq]

theorem and_opNMask {w : Word} {op n : Nat} (hop : opField w = op) (hn : (nField w).val = n) :
    w &&& 0xF00F = BitVec.ofNat 16 (op * 0x1000 + n) := by
  rw [← hop, ← hn, ← toNat_and_opNMask, BitVec.ofNat_toNat, BitVec.setWidth_eq]

theorem and_opNNMask {w : Word} {op nn : Nat} (hop : opField w = op) (hnn : (nnField w).toNat = nn) :
    w &&& 0xF0FF = BitVec.ofNat 16 (op * 0x1000 + nn) := by
  rw [← hop, ← hnn, ← toNat_and_opNNMask, BitVec.ofNat_toNat, BitVec.setWidth_eq]

/-- The row of a word that decodes: its instruction's mnemonic and its group's fixed digits. -/
theorem row_mem_of_decode {w : Word} {i : Instr} (h : decode w = .ok i) :
    ⟨i.mnemonic, groupMask (opField w), w &&& groupMask (opField w)⟩ ∈ opcodeRows := by
  rw [decode_eq_ok_iff] at h
  cases i with
  | cls =>
    obtain rfl : w = 0x00E0 := BitVec.eq_of_toNat_eq h
    decide
  | ret =>
    obtain rfl : w = 0x00EE := BitVec.eq_of_toNat_eq h
    decide
  | jp nnn | call nnn | ldI nnn | jpV0 nnn =>
    obtain ⟨hop, -⟩ := fields_of_wordNNN h rfl
    simp only [hop, Nat.reduceDiv, groupMask, and_opMask hop, Instr.mnemonic]
    decide
  | seImm x nn | sneImm x nn | ldImm x nn | addImm x nn | rnd x nn =>
    obtain ⟨hop, -⟩ := fields_of_wordFI h
    simp only [hop, groupMask, and_opMask hop, Instr.mnemonic]
    decide
  | drw x y n =>
    obtain ⟨hop, -⟩ := fields_of_wordFR h n.isLt
    simp only [hop, groupMask, and_opMask hop, Instr.mnemonic]
    decide
  | seReg x y | sneReg x y | ldReg x y | orReg x y | andReg x y | xorReg x y | addReg x y | subReg x y
  | shr x y | subnReg x y | shl x y =>
    obtain ⟨hop, -, -, hn⟩ := fields_of_wordFR h (by decide)
    simp only [hop, groupMask, and_opNMask hop hn, Instr.mnemonic]
    decide
  | skp x | sknp x | ldVxDt x | ldVxK x | ldDtVx x | ldStVx x | addI x | ldF x | ldB x | storeRegs x
  | loadRegs x =>
    obtain ⟨hop, -, hnn⟩ := fields_of_wordFX h (by decide)
    simp only [hop, groupMask, and_opNNMask hop hnn, Instr.mnemonic]
    decide

/-- Settles O3: the row of a word that decodes selects it, a selected word decodes, and no two rows overlap. -/
theorem decodeFollowsTheOpcodeTable : Obligations.DecodeFollowsTheOpcodeTable := by
  intro w
  have hrow : ∀ i, decode w = .ok i → ∃ r ∈ opcodeRows, r.selects w = true ∧ r.mnemonic = i.mnemonic :=
    fun i hi => ⟨_, row_mem_of_decode hi, Row.selects_iff.2 rfl, rfl⟩
  refine ⟨fun r hr r' hr' => row_eq_of_selects hr hr', fun r hr hs => ?_, hrow⟩
  obtain ⟨i, hi⟩ := exists_decode_of_selects hr hs
  obtain ⟨r', hr', hs', hname⟩ := hrow i hi
  exact ⟨i, hi, by rw [← hname, row_eq_of_selects hr hr' hs hs']⟩

end Sys2Proof
end

section
/-! The word at the front of a byte sequence and the word a step fetches (R45, R48, R49, R52, R54). -/

namespace Sys2Proof.Machine

/-- Settles O5: a byte sequence that decodes has two bytes, and its instruction's word is theirs. -/
theorem everyInstructionIsTwoBytes : Obligations.EveryInstructionIsTwoBytes := by
  intro bytes rest i h
  match bytes, h with
  | [], h => cases h
  | [_], h => cases h
  | hi :: lo :: tail, h =>
    rw [decodeBytes] at h
    split at h <;> cases h
    next hd => exact ⟨hi, lo, rfl, by rw [encodeOfDecodeIsTheWord _ _ hd, wordOfBytes_toNat]⟩

/-- Settles O6: each number written out is the word of its instruction. -/
theorem wordsOfEachFamilyDecode : Obligations.WordsOfEachFamilyDecode := by
  refine ⟨?_, ?_, ?_, ?_, ?_, ?_, ?_, ?_, ?_, ?_, ?_, ?_, ?_, ?_⟩ <;> exact decode_of_toNat_eq rfl

/-- Settles O7: the fetched word is the big-endian one of the two bytes at pc. -/
theorem stepRunsTheDecodedInstruction : Obligations.StepRunsTheDecodedInstruction :=
  step_of_decode

/-- Settles O8: the two things an unmatched word can do, one for each value of STRICT_DECODE. -/
theorem unmatchedWordDoesNothingOrRaises : Obligations.UnmatchedWordDoesNothingOrRaises := by
  intro s hl hf hp hd
  rw [step_of_unmatched s _ hl hf hp hd]
  obtain ⟨hc, hu⟩ | ⟨hc, hu⟩ := unmatched_cases s s.fetchWord
  · exact ⟨fun _ => by rw [hu]; rfl, fun h => by simp [hc] at h⟩
  · exact ⟨fun h => by simp [hc] at h, fun _ => by rw [hu, State.raise_fetched]⟩

/-- No instruction raises the fetch error: the fetch has passed its bound before one runs (R49). -/
theorem exec_fault_ne_fetchOutOfBounds {i : Instr} {s t : State} (h : exec i s = .next t) (hf : s.fault = none)
    (p : Word) : t.fault ≠ some (.fetchOutOfBounds p) := by
  cases i with
  | ret | call _ | drw _ _ _ | skp _ | sknp _ | ldVxK _ | ldB _ | storeRegs _ | loadRegs _ =>
    simp only [exec, execRet, execCall, execDrw, execSkp, execSknp, execLdVxK, execLdB, execStoreRegs,
      execLoadRegs] at h
    split at h <;> cases h <;> simp [hf]
  | _ =>
    cases h
    simp [hf]

/-- Settles O9: by the cases of a step; in bounds it is an instruction or an unmatched word, and neither raises it. -/
theorem fetchBoundIsTheLastWord : Obligations.FetchBoundIsTheLastWord := by
  refine fun s hl hf => ⟨step_of_fetch_error s hl hf, fun hp t p hstep => ?_⟩
  obtain ⟨-, ⟨e, he, -⟩ | ⟨-, hout, -⟩ | ⟨-, -, i, -, hi⟩ | ⟨-, -, e, -, rfl⟩⟩ := step_cases s t hstep
  · simp [hf] at he
  · omega
  · exact exec_fault_ne_fetchOutOfBounds hi hf p
  · obtain ⟨-, hu⟩ | ⟨-, hu⟩ := unmatched_cases s s.fetchWord <;> simp [hu, hf]

end Sys2Proof.Machine
end

section
/-! Clear screen, return, jump, call and skips (R65 to R72): the update each makes, what that update leaves alone, and
where the next step raises because pc was left above the last word. -/

namespace Sys2Proof.Machine

/-! ### What each instruction does, path by path -/

section
variable {s : State} {k : Fin 16} {nnn : Addr12}

theorem exec_ret_of_nonempty (h : s.sp.val = k.val + 1) : exec .ret s = .next (s.popPc k) := by
  rw [exec, execRet, s.topEntry_of_pos k h]

theorem exec_ret_of_empty (h : s.sp.val = 0) :
    exec .ret s = .next (s.erred (.stackUnderflow (s.pc - 2) 0x00EE)) := by
  rw [exec, execRet, s.topEntry_empty h]
  rfl

theorem exec_call_of_room (h : s.sp.val = k.val) :
    exec (.call nnn) s = .next ((s.pushPc k).jump (addrOf nnn)) := by
  rw [exec, execCall, s.freeEntry_of_lt k h]

theorem exec_call_of_full (h : s.sp.val = 16) :
    exec (.call nnn) s = .next (s.erred (.stackOverflow (s.pc - 2) (encode (.call nnn)))) := by
  rw [exec, execCall, s.freeEntry_full h]
  rfl

end

/-! ### What the updates leave alone -/

section
variable (s : State)

theorem clearScreen_changes :
    ChangesOnly (fun p => p = .redraw ∨ ∃ k, p = .pixel k) s (s.clearPixels.setRedraw true) := by
  intro p hp
  cases p
  case redraw => exact absurd (.inl rfl) hp
  case pixel k => exact absurd (.inr ⟨k, rfl⟩) hp
  all_goals rfl

theorem popPc_changes (k : Fin 16) : ChangesOnly (fun p => p = .pc ∨ p = .sp) s (s.popPc k) := by
  intro p hp
  cases p
  case pc => exact absurd (.inl rfl) hp
  case sp => exact absurd (.inr rfl) hp
  all_goals rfl

theorem jump_changes (target : Word) : ChangesOnly (fun p => p = .pc) s (s.jump target) := by
  intro p hp
  cases p
  case pc => exact absurd rfl hp
  all_goals rfl

/-- A push leaves every entry but the one it writes (R15). -/
theorem pushPc_stack_other {k j : Fin 16} (h : j ≠ k) : (s.pushPc k).stack[j] = s.stack[j] :=
  Vector.getElem_set_ne k.isLt j.isLt (fun hkj => h (Fin.ext hkj.symm))

/-- A push writes the pc to its entry (R68). -/
theorem pushPc_stack_same (k : Fin 16) : (s.pushPc k).stack[k] = s.pc :=
  Vector.getElem_set_self k.isLt

theorem pushPc_jump_changes (k : Fin 16) (target : Word) :
    ChangesOnly (fun p => p = .pc ∨ p = .sp ∨ p = .entry k) s ((s.pushPc k).jump target) := by
  intro p hp
  cases p
  case pc => exact absurd (.inl rfl) hp
  case sp => exact absurd (.inr (.inl rfl)) hp
  case entry j => exact pushPc_stack_other s fun hjk => hp (.inr (.inr (by rw [hjk])))
  all_goals rfl

end

/-! ### A pc left above the last word (R49) -/

theorem fetchRaises_of_pc_above {s : State} (hl : s.loaded = true) (hf : s.fault = none) (hp : 0xFFE < s.pc.toNat) :
    s.FetchRaises :=
  ⟨_, step_of_fetch_error s hl hf hp, rfl⟩

/-! ### The skips (R69 to R72) -/

/-- A skip on condition `c` compares as `Taken` and `NotTaken` say when they decide `c`. -/
theorem skip_compares {i : Instr} {s : State} {c : Bool} {Taken NotTaken : Prop}
    (hi : exec i s = .next (s.skipIf c)) (htaken : Taken → c = true) (hnot : NotTaken → c = false) :
    ∃ t, exec i s = .next t ∧ (Taken → t.pc = s.pc + 2) ∧ (NotTaken → t.pc = s.pc) ∧
      ChangesOnly (fun p => p = .pc) s t := by
  refine ⟨_, hi, fun h => ?_, fun h => ?_, skipIf_changes s c⟩
  · rw [htaken h]
    rfl
  · rw [hnot h]
    rfl

/-- Each of the four comparing skips is a skip on some condition. -/
theorem exec_comparing_skip {i : Instr} {x y : Reg} {nn : Byte}
    (hi : i ∈ [Instr.seImm x nn, .sneImm x nn, .seReg x y, .sneReg x y]) (s : State) :
    ∃ c, exec i s = .next (s.skipIf c) := by
  simp only [List.mem_cons, List.not_mem_nil, or_false] at hi
  obtain rfl | rfl | rfl | rfl := hi <;> exact ⟨_, rfl⟩

/-! ### The statements -/

/-- Settles O18: the call's push put the advanced pc in the entry that the return pops, and neither touches one below. -/
theorem returnUndoesCall : Obligations.ReturnUndoesCall := by
  intro nnn s p hroom
  obtain ⟨k, hk⟩ : ∃ k : Fin 16, s.sp.val = k.val := ⟨⟨s.sp.val, hroom⟩, rfl⟩
  have hret : exec .ret ((s.pushPc k).jump p) = .next (((s.pushPc k).jump p).popPc k) := exec_ret_of_nonempty rfl
  refine ⟨_, _, exec_call_of_room hk, hret, pushPc_stack_same s k, Fin.ext hk.symm, fun j hj => ?_⟩
  have hjk : j < k := Nat.lt_of_lt_of_eq hj hk
  exact pushPc_stack_other s (Fin.ne_of_lt hjk)

/-- Settles O14: CLS lists no cell of the frame buffer any more, and an unlisted cell is 0. -/
theorem clearScreenZeroesEveryCell : Obligations.ClearScreenZeroesEveryCell :=
  fun s => ⟨_, rfl, fun _ => rfl, rfl, clearScreen_changes s⟩

/-- Settles O15: a stack with an entry is popped, an empty one raises. -/
theorem returnPopsTheAddress : Obligations.ReturnPopsTheAddress :=
  fun s => ⟨fun k hk => ⟨_, exec_ret_of_nonempty hk, rfl, rfl, popPc_changes s k⟩, exec_ret_of_empty⟩

/-- Settles O16: the target is not cut, and 0xFFF lies above the last word. -/
theorem jumpSetsThePc : Obligations.JumpSetsThePc := by
  refine fun nnn s => ⟨_, rfl, addrOf_toNat nnn, jump_changes s _, ?_⟩
  rintro rfl hl hf
  have habove : 0xFFE < (addrOf 0xFFF).toNat := by decide
  exact fetchRaises_of_pc_above hl hf habove

/-- Settles O17: a stack with room takes the advanced pc, a full one raises. -/
theorem callPushesTheAdvancedPc : Obligations.CallPushesTheAdvancedPc :=
  fun nnn s =>
    ⟨fun k hk => ⟨_, exec_call_of_room hk, pushPc_stack_same s k, rfl, addrOf_toNat nnn, pushPc_jump_changes s k _⟩,
      fun hfull => ⟨_, rfl, exec_call_of_full hfull⟩⟩

/-- Settles O19: the four conditions, each decided by its comparison, and a skip that leaves load and latch alone. -/
theorem skipsCompareRegisters : Obligations.SkipsCompareRegisters := by
  intro x y nn s
  refine ⟨skip_compares rfl beq_iff_eq.2 beq_eq_false_iff_ne.2, skip_compares rfl bne_iff_ne.2 bne_eq_false_iff_eq.2,
    skip_compares rfl beq_iff_eq.2 beq_eq_false_iff_ne.2, skip_compares rfl bne_iff_ne.2 bne_eq_false_iff_eq.2, ?_⟩
  intro i t hi hexec hl hf hpc
  obtain ⟨c, hskip⟩ := exec_comparing_skip hi s
  obtain rfl : s.skipIf c = t := by simpa [hexec] using hskip.symm
  exact fetchRaises_of_pc_above ((s.skipIf_loaded c).trans hl) ((s.skipIf_fault c).trans hf) hpc

end Sys2Proof.Machine
end

section
/-! Load and add immediate, copy, logic, add, subtract and shift (R79 to R90): what the flags of R79 are, what the write
of a register or of a flag and a result leaves in each register, and the statements from the two. -/

namespace Sys2Proof.Machine

/-! ### The flags and the shifted byte as numbers -/

theorem bitOutRight_toNat (a : Byte) : (bitOutRight a).toNat = a.toNat % 2 := by
  rw [bitOutRight, BitVec.toNat_and]
  exact Nat.and_one_is_mod a.toNat

theorem ushiftRight_toNat (a : Byte) (n : Nat) : (a >>> n).toNat = a.toNat / 2 ^ n := by
  rw [BitVec.toNat_ushiftRight, Nat.shiftRight_eq_div_pow]

/-- Bit 7 is the top one: nothing is left of the byte above it. -/
theorem bitOutLeft_toNat (a : Byte) : (bitOutLeft a).toNat = a.toNat / 128 := by
  have h : (bitOutLeft a).toNat = (a >>> 7).toNat % 2 := bitOutRight_toNat (a >>> 7)
  rw [h, ushiftRight_toNat]
  omega

theorem shiftLeft_one_toNat (a : Byte) : (a <<< 1).toNat = a.toNat * 2 % 256 := by
  rw [BitVec.toNat_shiftLeft, Nat.shiftLeft_eq]

theorem sub_toNat (a b : Byte) : (a - b).toNat = (a.toNat + 256 - b.toNat) % 256 := by
  rw [BitVec.toNat_sub]
  omega

/-! ### A flag and a result -/

/-- With `x = VF` too: the result is written last (R79, D10). -/
theorem reg_setFlagged_result (s : State) (x : Reg) (f b : Byte) : (s.setFlagged x f b).reg x = b := by
  rw [State.reg_setFlagged, if_pos rfl]

theorem reg_setFlagged_flag (s : State) {x : Reg} (f b : Byte) (hx : x ≠ VF) : (s.setFlagged x f b).reg VF = f := by
  rw [State.reg_setFlagged, if_neg hx.symm, if_pos rfl]

/-- An instruction that writes flag and result writes their numbers, and no more than the two registers. -/
theorem flagged_writes {i : Instr} {s : State} {x : Reg} {f b : Byte} {flag result : Nat}
    (hi : exec i s = .next (s.setFlagged x f b)) (hb : b.toNat = result) (hf : f.toNat = flag) :
    ∃ t, exec i s = .next t ∧ (t.reg x).toNat = result ∧ (x ≠ VF → (t.reg VF).toNat = flag) ∧
      ChangesOnly (fun p => p = .reg x ∨ p = .reg VF) s t :=
  ⟨_, hi, by rw [reg_setFlagged_result, hb], fun hx => by rw [reg_setFlagged_flag s f b hx, hf],
    setFlagged_changes s x f b⟩

/-- When the flag is a truth value `c`, it is 1 and 0 as `Holds` and `Fails` say when they decide `c`. -/
theorem flagged_writes_test {i : Instr} {s : State} {x : Reg} {c : Bool} {b : Byte} {result : Nat} {Holds Fails : Prop}
    (hi : exec i s = .next (s.setFlagged x (flagByte c) b)) (hb : b.toNat = result) (hholds : Holds → c = true)
    (hfails : Fails → c = false) :
    ∃ t, exec i s = .next t ∧ (t.reg x).toNat = result ∧ (x ≠ VF → Holds → t.reg VF = 1) ∧
      (x ≠ VF → Fails → t.reg VF = 0) ∧ ChangesOnly (fun p => p = .reg x ∨ p = .reg VF) s t := by
  refine ⟨_, hi, by rw [reg_setFlagged_result, hb], fun hx h => ?_, fun hx h => ?_, setFlagged_changes s x _ b⟩
  · rw [reg_setFlagged_flag s _ b hx, hholds h]
    rfl
  · rw [reg_setFlagged_flag s _ b hx, hfails h]
    rfl

/-! ### The statements -/

/-- Settles O20: each is one write of VX, and a sum of bytes is modulo 256. -/
theorem loadAndAddImmediate : Obligations.LoadAndAddImmediate := by
  refine fun x nn s => ⟨⟨_, rfl, s.reg_setReg_same x nn, setReg_changes s x nn⟩, _, rfl, ?_, setReg_changes s x _⟩
  rw [State.reg_setReg_same]
  exact BitVec.toNat_add _ _

/-- Settles O21: one write of VX. -/
theorem copyRegister : Obligations.CopyRegister :=
  fun x y s => ⟨_, rfl, s.reg_setReg_same x (s.reg y), setReg_changes s x (s.reg y)⟩

/-- Settles O22: each is one write of VX, with the bits of the library's bitwise operation. -/
theorem logicIsBitwiseWithoutFlag : Obligations.LogicIsBitwiseWithoutFlag := by
  refine fun x y s => ⟨⟨_, rfl, fun k => ?_, setReg_changes s x _⟩, ⟨_, rfl, fun k => ?_, setReg_changes s x _⟩,
    _, rfl, fun k => ?_, setReg_changes s x _⟩
  · rw [State.reg_setReg_same, BitVec.getLsbD_or]
  · rw [State.reg_setReg_same, BitVec.getLsbD_and]
  · rw [State.reg_setReg_same, BitVec.getLsbD_xor]

/-- Settles O23: the carry is the test that the sum exceeds 255. -/
theorem addWritesSumAndCarry : Obligations.AddWritesSumAndCarry :=
  fun _ _ _ => flagged_writes_test rfl (BitVec.toNat_add _ _) decide_eq_true
    fun h => decide_eq_false (Nat.not_lt.2 h)

/-- Settles O24: no borrow is the test that the minuend is at least the subtrahend. -/
theorem subtractWritesDifferenceAndNoBorrow : Obligations.SubtractWritesDifferenceAndNoBorrow :=
  fun _ _ _ =>
    ⟨flagged_writes_test rfl (sub_toNat _ _) decide_eq_true fun h => decide_eq_false (Nat.not_le.2 h),
      flagged_writes_test rfl (sub_toNat _ _) decide_eq_true fun h => decide_eq_false (Nat.not_le.2 h)⟩

/-- Settles O25: halving and doubling, with the bit at the end that is shifted out. -/
theorem shiftsWriteTheBitShiftedOut : Obligations.ShiftsWriteTheBitShiftedOut :=
  fun _ _ _ =>
    ⟨flagged_writes rfl (ushiftRight_toNat _ 1) (bitOutRight_toNat _),
      flagged_writes rfl (shiftLeft_one_toNat _) (bitOutLeft_toNat _)⟩

end Sys2Proof.Machine
end

section
/-! Load index, jump with offset and random (R100 to R102): what each update leaves alone, the sum of the jump as a number,
and the statements. -/

namespace Sys2Proof.Machine

/-! ### What the updates leave alone -/

section
variable (s : State)

theorem setIndex_changes (w : Word) : ChangesOnly (fun p => p = .index) s (s.setIndex w) := by
  intro p hp
  cases p
  case index => exact absurd rfl hp
  all_goals rfl

/-- A draw counted after a write of VX changes the counter besides (R102). -/
theorem setReg_countDraw_changes (x : Reg) (b : Byte) :
    ChangesOnly (fun p => p = .reg x ∨ p = .draws) s (s.setReg x b).countDraw := by
  intro p hp
  cases p
  case reg r => exact setReg_changes s x b (.reg r) fun hr => hp (.inl hr)
  case draws => exact absurd (.inr rfl) hp
  all_goals rfl

end

/-! ### The jump's target -/

/-- The sum of an address and a byte fits in 16 bits, so it does not wrap (R101, D8). -/
theorem jpV0_target_toNat (nnn : Addr12) (b : Byte) :
    (addrOf nnn + b.zeroExtend 16).toNat = nnn.toNat + b.toNat := by
  have hb : (b.zeroExtend 16).toNat = b.toNat := BitVec.toNat_setWidth_of_le (by decide)
  rw [BitVec.toNat_add, addrOf_toNat, hb]
  omega

/-! ### The statements -/

/-- Settles O27: one write of the index register. -/
theorem setIndexLoadsTheAddress : Obligations.SetIndexLoadsTheAddress :=
  fun nnn s => ⟨_, rfl, addrOf_toNat nnn, setIndex_changes s _⟩

/-- Settles O28: the jump leaves load and latch alone, so a target above the last word raises. -/
theorem jumpWithOffsetIsNotMasked : Obligations.JumpWithOffsetIsNotMasked := by
  intro nnn s
  have htarget := jpV0_target_toNat nnn (s.reg 0)
  exact ⟨_, rfl, htarget, jump_changes s _, fun habove hl hf =>
    fetchRaises_of_pc_above hl hf (Nat.lt_of_lt_of_eq habove htarget.symm)⟩

/-- Settles O29: VX holds the byte of this draw under the mask, and the draw is counted. -/
theorem randomIsAMaskedFreshDraw : Obligations.RandomIsAMaskedFreshDraw := by
  intro x nn s
  have hreg := s.reg_setReg_same x (Config.randByte s.draws &&& nn)
  refine ⟨_, rfl, hreg, rfl, fun k hk => ?_, setReg_countDraw_changes s x _⟩
  rw [State.countDraw_reg, hreg, BitVec.getLsbD_and, hk, Bool.and_false]

end Sys2Proof.Machine
end

section
/-! Draw (R110 to R112): the sprite that an in-bounds DRW draws, its frame, and what a second draw of it meets. -/

namespace Sys2Proof.Machine

section
variable {s : State} {x y : Reg} {n : Fin 16}

/-- With no row, or with every row in the address space, a sprite is drawn (R110, R35). -/
theorem exec_drw_of_inBounds (h : n.val = 0 ∨ s.i.toNat + n.val ≤ 0x1000) :
    exec (.drw x y n) s = .next (s.drawSprite (s.reg x).toNat (s.reg y).toNat n.val) := by
  rw [exec, execDrw, State.dataFault, firstBadAddress_eq, if_pos h]

/-- A drawn sprite changes VF, redraw and its own cells alone (R26, R110). -/
theorem drawSprite_changes (hfb : FrameBuffer.wf s.fb) (x0 y0 : Nat) :
    ChangesOnly (fun p => p = .reg VF ∨ p = .redraw ∨ ∃ k, p = .pixel k ∧ k ∈ s.spriteCells x0 y0 n.val)
      s (s.drawSprite x0 y0 n.val) := by
  intro p hp
  cases p
  case reg r => exact drawSprite_reg_of_ne_VF s x0 y0 n.val fun hr => hp (.inl (congrArg Part.reg hr))
  case redraw => exact absurd (.inr (.inl rfl)) hp
  case pixel k =>
    have hk : k ∉ s.spriteCells x0 y0 n.val := fun hk => hp (.inr (.inr ⟨k, rfl, hk⟩))
    rw [Part.Same, pixel_drawSprite s x0 y0 n.val Fin.is_le' hfb, if_neg hk]
  all_goals simp [Part.Same, State.readByte]

theorem drawSprite_fb_wf (hfb : FrameBuffer.wf s.fb) (x0 y0 m : Nat) : FrameBuffer.wf (s.drawSprite x0 y0 m).fb :=
  (s.setReg VF 0).foldl_flipPixel_wf _ (fun k hk => s.spriteCells_lt _ _ _ k hk) hfb

/-- A draw writes neither I nor memory, so a sprite has the same cells after it. -/
theorem spriteCells_drawSprite (s : State) (x0 y0 m : Nat) :
    (s.drawSprite x0 y0 m).spriteCells x0 y0 m = s.spriteCells x0 y0 m := by
  simp [State.spriteCells, State.readByte]

theorem pixel_drawSprite_of_mem (hfb : FrameBuffer.wf s.fb) {x0 y0 k : Nat} (hk : k ∈ s.spriteCells x0 y0 n.val) :
    (s.drawSprite x0 y0 n.val).pixel k = 1 - s.pixel k := by
  rw [pixel_drawSprite s x0 y0 n.val Fin.is_le' hfb, if_pos hk]

/-- VF after a draw that meets a lit cell (R110). -/
theorem reg_VF_drawSprite_of_lit (hfb : FrameBuffer.wf s.fb) {x0 y0 k : Nat}
    (hk : k ∈ s.spriteCells x0 y0 n.val) (hlit : s.pixel k = 1) : (s.drawSprite x0 y0 n.val).reg VF = 1 := by
  rw [reg_drawSprite s x0 y0 n.val Fin.is_le' hfb, if_pos ⟨rfl, k, hk, hlit⟩]

/-- VF after a draw that meets no lit cell (R110). -/
theorem reg_VF_drawSprite_of_unlit (hfb : FrameBuffer.wf s.fb) {x0 y0 : Nat}
    (hunlit : ∀ k ∈ s.spriteCells x0 y0 n.val, s.pixel k ≠ 1) : (s.drawSprite x0 y0 n.val).reg VF = 0 := by
  have hnone : ¬ ∃ k ∈ s.spriteCells x0 y0 n.val, s.pixel k = 1 := fun ⟨k, hk, hlit⟩ => hunlit k hk hlit
  rw [reg_drawSprite s x0 y0 n.val Fin.is_le' hfb, if_neg (fun h => hnone h.2), if_pos rfl]

/-- A cell flipped twice is the cell it was, whatever byte it holds (R110). -/
theorem pixel_drawSprite_drawSprite (hfb : FrameBuffer.wf s.fb) (x0 y0 k : Nat) :
    ((s.drawSprite x0 y0 n.val).drawSprite x0 y0 n.val).pixel k = s.pixel k := by
  rw [pixel_drawSprite _ x0 y0 n.val Fin.is_le' (drawSprite_fb_wf hfb x0 y0 n.val), spriteCells_drawSprite,
    pixel_drawSprite s x0 y0 n.val Fin.is_le' hfb]
  split
  · bv_omega
  · rfl

/-- DRW again, with coordinates that the first one does not write, draws the same sprite at the same place. -/
theorem exec_drw_after_drawSprite (h : n.val = 0 ∨ s.i.toNat + n.val ≤ 0x1000) (hx : x ≠ VF) (hy : y ≠ VF)
    (x0 y0 : Nat) :
    exec (.drw x y n) (s.drawSprite x0 y0 n.val) =
      .next ((s.drawSprite x0 y0 n.val).drawSprite (s.reg x).toNat (s.reg y).toNat n.val) := by
  rw [exec_drw_of_inBounds (by rwa [State.drawSprite_i]), drawSprite_reg_of_ne_VF s x0 y0 _ hx,
    drawSprite_reg_of_ne_VF s x0 y0 _ hy]

end

/-! ### The statements -/

/-- Settles O30: the cells a set bit meets are those of the sprite drawn, which flips each of them once. -/
theorem drawFlipsExactlyTheSpriteCells : Obligations.DrawFlipsExactlyTheSpriteCells := by
  intro x y n s hfb hin
  simp only [spriteMeets_iff]
  refine ⟨_, exec_drw_of_inBounds hin, rfl, fun _ hk => pixel_drawSprite_of_mem hfb hk, ?_,
    reg_VF_drawSprite_of_unlit hfb, drawSprite_changes hfb _ _⟩
  rintro ⟨k, hk, hlit⟩
  exact reg_VF_drawSprite_of_lit hfb hk hlit

/-- Settles O32: both draws flip the same cells, and one that the first lit is lit when the second meets it. -/
theorem drawingTwiceRestoresTheScreen : Obligations.DrawingTwiceRestoresTheScreen := by
  intro x y n s hfb hin hx hy
  refine ⟨_, _, exec_drw_of_inBounds hin, exec_drw_after_drawSprite hin hx hy _ _,
    pixel_drawSprite_drawSprite hfb _ _, ?_⟩
  rintro ⟨k, hmeets, hdark⟩
  have hk := (spriteMeets_iff s x y n.val k).1 hmeets
  have hlit : (s.drawSprite (s.reg x).toNat (s.reg y).toNat n.val).pixel k = 1 := by
    rw [pixel_drawSprite_of_mem hfb hk, hdark]
    rfl
  exact reg_VF_drawSprite_of_lit (drawSprite_fb_wf hfb _ _ _) (by rwa [spriteCells_drawSprite]) hlit

end Sys2Proof.Machine
end

section
/-! Key skips, timer accessors, the wait for a key and the ticks (R120 to R125, R160): the path each instruction takes,
what the updates leave alone, what a tick does to each timer, and the statements. -/

namespace Sys2Proof.Machine

/-! ### What the key instructions do, path by path -/

section
variable {s : State} {x : Reg} {k : Fin 16}

theorem exec_skp_of_key (h : (s.reg x).toNat = k.val) : exec (.skp x) s = .next (s.skipIf s.keys[k]) := by
  rw [exec, execSkp, keyIndex_eq _ k h]

theorem exec_sknp_of_key (h : (s.reg x).toNat = k.val) : exec (.sknp x) s = .next (s.skipIf (!s.keys[k])) := by
  rw [exec, execSknp, keyIndex_eq _ k h]

theorem exec_skp_of_no_key (h : 15 < (s.reg x).toNat) :
    exec (.skp x) s = .next (s.erred (.keyOutOfBounds (s.pc - 2) (encode (.skp x)) (s.reg x))) := by
  rw [exec, execSkp, keyIndex_none _ h]
  rfl

theorem exec_sknp_of_no_key (h : 15 < (s.reg x).toNat) :
    exec (.sknp x) s = .next (s.erred (.keyOutOfBounds (s.pc - 2) (encode (.sknp x)) (s.reg x))) := by
  rw [exec, execSknp, keyIndex_none _ h]
  rfl

theorem exec_ldVxK_of_no_key (h : ∀ k : Fin 16, s.keys[k] = false) : exec (.ldVxK x) s = .next s.awaitKey := by
  rw [exec, execLdVxK, (selectKey_none s.keys).2 h]

theorem exec_ldVxK_of_selected (h : selectKey s.keys = some k) :
    exec (.ldVxK x) s = .next (s.setReg x (BitVec.ofNat 8 k.val)) := by
  rw [exec, execLdVxK, h]

end

/-- With a key down, some key that is down is selected (R123). -/
theorem exists_selectKey {keys : Vector Bool 16} (h : ∃ k : Fin 16, keys[k] = true) :
    ∃ k, selectKey keys = some k ∧ keys[k] = true := by
  obtain ⟨j, hj⟩ := h
  cases hsel : selectKey keys with
  | none => simp [(selectKey_none keys).1 hsel j] at hj
  | some k => exact ⟨k, rfl, selectKey_pressed keys k hsel⟩

/-- A key index fits in a byte. -/
theorem keyByte_toNat (k : Fin 16) : (BitVec.ofNat 8 k.val).toNat = k.val := by
  rw [BitVec.toNat_ofNat, Nat.mod_eq_of_lt (by omega)]

/-! ### What the updates leave alone -/

section
variable (s : State)

theorem setDelay_changes (b : Byte) : ChangesOnly (fun p => p = .delay) s (s.setDelay b) := by
  intro p hp
  cases p
  case delay => exact absurd rfl hp
  all_goals rfl

theorem setSound_changes (b : Byte) : ChangesOnly (fun p => p = .sound) s (s.setSound b) := by
  intro p hp
  cases p
  case sound => exact absurd rfl hp
  all_goals rfl

theorem awaitKey_changes : ChangesOnly (fun p => p = .pc ∨ p = .reply) s s.awaitKey := by
  intro p hp
  cases p
  case pc => exact absurd (.inl rfl) hp
  case reply => exact absurd (.inr rfl) hp
  all_goals rfl

theorem tickTimers_changes : ChangesOnly (fun p => p = .delay ∨ p = .sound ∨ p = .reply) s (tickTimers s) := by
  intro p hp
  cases p
  case delay => exact absurd (.inl rfl) hp
  case sound => exact absurd (.inr (.inl rfl)) hp
  case reply => exact absurd (.inr (.inr rfl)) hp
  all_goals rfl

end

theorem Part.Same.trans {p : Part} {s t u : State} (hst : p.Same s t) (htu : p.Same t u) : p.Same s u := by
  cases p <;> exact Eq.trans htu hst

/-- Two transitions within one frame are together within it. -/
theorem ChangesOnly.trans {may : Part → Prop} {s t u : State} (hst : ChangesOnly may s t) (htu : ChangesOnly may t u) :
    ChangesOnly may s u :=
  fun p hp => (hst p hp).trans (htu p hp)

/-! ### What a tick does to a timer (R160) -/

/-- A count of a timer stops at 0, as subtraction of naturals does. -/
theorem countDown_toNat (b : Byte) : (countDown b).toNat = b.toNat - 1 := by
  unfold countDown
  split
  · next h =>
    rw [h]
    rfl
  · next h => bv_omega

/-- The tone is active exactly when ST is above 0. -/
theorem tickTimers_reply (s : State) : (tickTimers s).reply = .tone (decide (0 < s.st.toNat)) := by
  have hactive : (s.st != 0) = decide (0 < s.st.toNat) := by
    rw [Bool.eq_iff_iff, bne_iff_ne, decide_eq_true_iff]
    constructor <;> intro h <;> bv_omega
  rw [← hactive]
  rfl

/-- A run that begins with a tick goes on from the ticked state. -/
theorem hostRun_tick_cons (rest : List HostAction) (s : State) :
    hostRun (.tick :: rest) s = hostRun rest (tickTimers s) := rfl

/-! ### The statements -/

/-- Settles O46, by induction on `n`: the first tick leaves each timer one lower, and the `n` after it do the rest. -/
theorem ticksRunTheTimersOut : Obligations.TicksRunTheTimersOut := by
  intro n
  induction n with
  | zero =>
    intro s
    exact ⟨_, rfl, countDown_toNat s.dt, countDown_toNat s.st, tickTimers_reply s, tickTimers_changes s⟩
  | succ n ih =>
    intro s
    obtain ⟨t, hrun, hdt, hst, htone, hframe⟩ := ih (tickTimers s)
    have hdt1 : (tickTimers s).dt.toNat = s.dt.toNat - 1 := countDown_toNat s.dt
    have hst1 : (tickTimers s).st.toNat = s.st.toNat - 1 := countDown_toNat s.st
    have habove : n < s.st.toNat - 1 ↔ n + 1 < s.st.toNat := by omega
    refine ⟨t, ?_, by omega, by omega, ?_, (tickTimers_changes s).trans hframe⟩
    · rw [List.replicate_succ, hostRun_tick_cons, hrun]
    · rw [htone, hst1, decide_eq_decide.2 habove]

/-- Settles O35: a register up to 15 names the key whose cell decides the skip, and one above names none. -/
theorem keySkipsTestTheNamedKey : Obligations.KeySkipsTestTheNamedKey :=
  fun _ _ =>
    ⟨fun _ hk =>
      ⟨skip_compares (exec_skp_of_key hk) id id,
        skip_compares (exec_sknp_of_key hk) (Bool.not_eq_true' _).mpr (Bool.not_eq_false' _).mpr⟩,
      fun habove => ⟨exec_skp_of_no_key habove, exec_sknp_of_no_key habove⟩⟩

/-- Settles O36: each is one write, of VX, of DT or of ST. -/
theorem timerAccessorsCopy : Obligations.TimerAccessorsCopy :=
  fun x s =>
    ⟨⟨_, rfl, s.reg_setReg_same x s.dt, setReg_changes s x s.dt⟩, ⟨_, rfl, rfl, setDelay_changes s (s.reg x)⟩,
      ⟨_, rfl, rfl, setSound_changes s (s.reg x)⟩⟩

/-- Settles O37: KEY_SELECT selects nothing when no key is down, and otherwise a key that is down. -/
theorem waitForKeyStoresAPressedKey : Obligations.WaitForKeyStoresAPressedKey := by
  refine fun x s => ⟨fun hnone => ⟨_, exec_ldVxK_of_no_key hnone, rfl, rfl, awaitKey_changes s⟩, fun hsome => ?_⟩
  obtain ⟨k, hsel, hdown⟩ := exists_selectKey hsome
  refine ⟨_, k, exec_ldVxK_of_selected hsel, hdown, ?_, setReg_changes s x _⟩
  rw [State.reg_setReg_same, keyByte_toNat]

end Sys2Proof.Machine
end

section
/-! Index arithmetic and the block that comes back (R135, R136, R138, R139): what the two instructions that compute I leave
in it, as a number, and a block stored and then loaded into other registers. -/

namespace Sys2Proof.Machine

/-! ### The index computed -/

/-- The index wraps at 16 bits and nowhere below (R135, D7). -/
theorem addIndex_toNat (i : Word) (b : Byte) : (i + b.zeroExtend 16).toNat = (i.toNat + b.toNat) % 65536 := by
  rw [BitVec.toNat_add, BitVec.toNat_setWidth_of_le (by decide)]

/-- The address of the glyph of any byte fits in 16 bits, so it is not reduced (R136, D16). -/
theorem glyphAddress_toNat (b : Byte) : (glyphAddress b).toNat = 0x050 + 5 * b.toNat := by
  rw [glyphAddress, BitVec.toNat_ofNat]
  omega

/-! ### The statements -/

/-- Settles O38: each is one write of the index register, and the write leaves VF alone. -/
theorem indexArithmeticIsNotMasked : Obligations.IndexArithmeticIsNotMasked :=
  fun x s =>
    ⟨⟨_, rfl, addIndex_toNat s.i (s.reg x), setIndex_changes s _⟩,
      ⟨_, rfl, glyphAddress_toNat (s.reg x), setIndex_changes s _⟩⟩

/-- Settles O42: the store leaves I alone and puts the block at I, and the load reads memory at I whatever the registers
hold. -/
theorem loadAfterStoreGivesTheRegistersBack : Obligations.LoadAfterStoreGivesTheRegistersBack := by
  intro x s v hmem hin
  obtain ⟨t, hstore, hstored, hframe⟩ := (storeWritesRegistersToMemory x s hmem).1 hin
  have hi : t.i = s.i := hframe .index (by simp)
  obtain ⟨u, hload, hloaded, -⟩ := (loadReadsRegistersFromMemory x { t with v := v }).1 (by rwa [hi])
  refine ⟨t, u, hstore, hload, fun r hr => ?_⟩
  calc u.reg r
    _ = t.readByte (t.i.toNat + r.val) := hloaded r hr
    _ = t.readByte (s.i.toNat + r.val) := by rw [hi]
    _ = s.reg r := hstored r hr

end Sys2Proof.Machine
end

section
/-! Errors, step outcomes, timers and the host's calls (R150 to R171): the error each instruction's own check raises, the
three outcomes of a step, and what the calls other than step write. -/

namespace Sys2Proof.Machine

/-! ### The error of an instruction's own check (R152, R154) -/

/-- `OwnError i at_ e`: the check of instruction `i`, at address `at_`, raises `e` where it fails (R154). -/
inductive OwnError : Instr → Word → StepError → Prop where
  | call (nnn : Addr12) (at_ : Word) : OwnError (.call nnn) at_ (.stackOverflow at_ (encode (.call nnn)))
  | ret (at_ : Word) : OwnError .ret at_ (.stackUnderflow at_ (encode .ret))
  | drw (x y : Reg) (n : Fin 16) (at_ : Word) (a : Nat) :
      OwnError (.drw x y n) at_ (.dataOutOfBounds at_ (encode (.drw x y n)) a)
  | ldB (x : Reg) (at_ : Word) (a : Nat) : OwnError (.ldB x) at_ (.dataOutOfBounds at_ (encode (.ldB x)) a)
  | storeRegs (x : Reg) (at_ : Word) (a : Nat) :
      OwnError (.storeRegs x) at_ (.dataOutOfBounds at_ (encode (.storeRegs x)) a)
  | loadRegs (x : Reg) (at_ : Word) (a : Nat) :
      OwnError (.loadRegs x) at_ (.dataOutOfBounds at_ (encode (.loadRegs x)) a)
  | skp (x : Reg) (at_ : Word) (b : Byte) : OwnError (.skp x) at_ (.keyOutOfBounds at_ (encode (.skp x)) b)
  | sknp (x : Reg) (at_ : Word) (b : Byte) : OwnError (.sknp x) at_ (.keyOutOfBounds at_ (encode (.sknp x)) b)

theorem OwnError.records {i : Instr} {at_ : Word} {e : StepError} (h : OwnError i at_ e) : e.Records at_ (encode i) := by
  cases h <;> exact ⟨rfl, rfl⟩

/-- An instruction that sets the latch raised the error of its own check and did nothing else (R151, R154). -/
theorem exec_raises_ownError {i : Instr} {s t : State} {e : StepError} (h : exec i s = .next t) (hf : s.fault = none)
    (he : t.fault = some e) : OwnError i s.ipc e ∧ t = s.raise e := by
  cases i with
  | ret | call _ | drw _ _ _ | skp _ | sknp _ | ldB _ | storeRegs _ | loadRegs _ =>
    simp only [exec, execRet, execCall, execDrw, execSkp, execSknp, execLdB, execStoreRegs, execLoadRegs] at h
    split at h <;> cases h
    · cases he
      exact ⟨by constructor, rfl⟩
    · simp [hf] at he
  | ldVxK _ =>
    simp only [exec, execLdVxK] at h
    split at h <;> cases h <;> simp [hf] at he
  | _ =>
    cases h
    simp [hf] at he

/-- Settles O13: each instruction's own check raises errors of one code. -/
theorem eachInstructionRaisesOneKindOfError : Obligations.EachInstructionRaisesOneKindOfError := by
  intro i s t e h hf he
  obtain ⟨hown, -⟩ := exec_raises_ownError h hf he
  cases hown with
  | call nnn => exact .inl ⟨rfl, nnn, rfl⟩
  | ret => exact .inr (.inl ⟨rfl, rfl⟩)
  | drw x y n => exact .inr (.inr (.inl ⟨rfl, .inl ⟨x, y, n, rfl⟩⟩))
  | ldB x => exact .inr (.inr (.inl ⟨rfl, .inr ⟨x, .inl rfl⟩⟩))
  | storeRegs x => exact .inr (.inr (.inl ⟨rfl, .inr ⟨x, .inr (.inl rfl)⟩⟩))
  | loadRegs x => exact .inr (.inr (.inl ⟨rfl, .inr ⟨x, .inr (.inr rfl)⟩⟩))
  | skp x => exact .inr (.inr (.inr ⟨rfl, x, .inl rfl⟩))
  | sknp x => exact .inr (.inr (.inr ⟨rfl, x, .inr rfl⟩))

/-! ### The outcomes of a step (R150, R151) -/

/-- A key wait after the fetch leaves the state before the step, with the outcome `AwaitingKey` (R123). -/
theorem State.awaitKey_fetched (s : State) : s.fetched.awaitKey = { s with reply := .awaitingKey } := by
  rw [State.awaitKey, State.ipc_fetched]
  rfl

/-- Settles O11, by the cases of a step: the fetch error, an instruction's own error, an unmatched word under
STRICT_DECODE. -/
theorem raisedErrorChangesOnlyTheLatch : Obligations.RaisedErrorChangesOnlyTheLatch := by
  intro s t e hstep hf he
  obtain ⟨-, ⟨e', he', -⟩ | ⟨-, -, rfl⟩ | ⟨-, -, i, hi, hexec⟩ | ⟨-, -, r, -, rfl⟩⟩ := step_cases s t hstep
  · simp [hf] at he'
  · cases he
    exact ⟨rfl, rfl⟩
  · obtain ⟨hown, rfl⟩ := exec_raises_ownError hexec hf he
    have hrec := hown.records
    rw [State.ipc_fetched, encodeOfDecodeIsTheWord _ _ hi] at hrec
    exact ⟨s.raise_fetched e, hrec⟩
  · obtain ⟨-, hu⟩ | ⟨-, hu⟩ := unmatched_cases s s.fetchWord <;> rw [hu] at he ⊢
    · simp [hf] at he
    · cases he
      exact ⟨s.raise_fetched _, rfl, rfl⟩

/-- Settles O10: the latched error and the fetch error are errors, an instruction ends in one of the three outcomes, and an
unmatched word is `Ok` or an error. -/
theorem everyStepHasOneOutcome : Obligations.EveryStepHasOneOutcome := by
  intro s hl
  obtain ⟨e, hf⟩ | hf := (Option.eq_none_or_eq_some s.fault).symm
  · exact ⟨_, step_of_latched s e hl hf, .inr (.inr ⟨e, by rw [← hf]; rfl⟩)⟩
  obtain habove | hp := Nat.lt_or_ge 0xFFE s.pc.toNat
  · exact ⟨_, step_of_fetch_error s hl hf habove, .inr (.inr ⟨_, rfl⟩)⟩
  cases hd : decode s.fetchWord with
  | ok i =>
    obtain ⟨t, ht⟩ := exec_next i s.fetched
    refine ⟨t, (step_of_decode s i hl hf hp hd).trans ht, ?_⟩
    obtain ⟨hfault, hreply⟩ | ⟨rfl, ⟨x, rfl⟩, hkeys⟩ | ⟨e, rfl⟩ := exec_outcome i s.fetched t ht
    · exact .inl ⟨hreply, hf, hfault.trans hf⟩
    · exact .inr (.inl ⟨s.awaitKey_fetched, hf, hkeys, x, rfl⟩)
    · exact .inr (.inr ⟨e, s.raise_fetched e⟩)
  | error r =>
    refine ⟨_, step_of_unmatched s r hl hf hp hd, ?_⟩
    obtain ⟨-, hu⟩ | ⟨-, hu⟩ := unmatched_cases s s.fetchWord <;> rw [hu]
    · exact .inl ⟨rfl, hf, hf⟩
    · exact .inr (.inr ⟨_, s.raise_fetched _⟩)

/-! ### The host's calls other than step (R160, R170, R171) -/

/-- The state with every part that a call other than step can write in a loaded core set to one value: what is left is the
core's own (R171). -/
def State.coreOnly (s : State) : State :=
  { s with dt := 0, st := 0, keys := Vector.replicate 16 false, redraw := false, reply := .nothing }

/-- In a loaded core a call other than step leaves the core's own state alone (R171): a second load is no move (R182). -/
theorem hostAct_keeps_coreOnly {a : HostAction} {s t : State} (ha : a ≠ .step) (hl : s.loaded = true)
    (h : hostAct a s = .next t) : t.coreOnly = s.coreOnly := by
  cases a with
  | step => exact absurd rfl ha
  | load source =>
    obtain ⟨hunloaded, -⟩ := loadProgram_cases h
    simp [hl] at hunloaded
  | setKey k b =>
    obtain ⟨-, rfl⟩ := setKey_cases h
    rfl
  | tick | clearRedraw | read =>
    cases h
    rfl

/-- Settles O55: each call keeps the core's own state, the load among it, and so does a run by induction over its calls. -/
theorem hostCannotWriteCoreState : Obligations.HostCannotWriteCoreState := by
  intro calls s t hl hstep hrun
  have hcore : t.coreOnly = s.coreOnly :=
    hostRun_relates (R := fun s t => s.loaded = true → t.coreOnly = s.coreOnly) (fun _ _ => rfl)
      (fun _ _ _ hst htu hl => (htu ((congrArg State.loaded (hst hl)).trans hl)).trans (hst hl))
      (fun _ ha _ _ h hl => hostAct_keeps_coreOnly (ne_of_mem_of_not_mem ha hstep) hl h) hrun hl
  obtain ⟨hv, hi, hpc, hsp, hstack, -, -, hmem, hfb, -, -, hfault, -, -, hdraws, -⟩ := State.mk.inj hcore
  exact ⟨hv, hi, hpc, hsp, hstack, hmem, hfb, hfault, hdraws⟩

theorem setKey_of_lt (k : Fin 16) (b : Bool) (s : State) :
    setKey k.val b s = .next { s with keys := s.keys.set k b } := dif_pos k.isLt

theorem setKey_of_above {k : Nat} (b : Bool) (s : State) (h : 15 < k) : setKey k b s = .refused .keyIndexAbove15 :=
  dif_neg (by omega)

theorem keys_set_changes (s : State) (k : Fin 16) (b : Bool) :
    ChangesOnly (fun p => p = .key k) s { s with keys := s.keys.set k b } := by
  intro p hp
  cases p
  case key j => exact Vector.getElem_set_ne k.isLt j.isLt fun hkj => hp (by rw [Fin.ext hkj])
  all_goals rfl

theorem setRedraw_changes (s : State) (b : Bool) : ChangesOnly (fun p => p = .redraw) s (s.setRedraw b) := by
  intro p hp
  cases p
  case redraw => exact absurd rfl hp
  all_goals rfl

/-- Settles O45: a tick counts each timer down, and its tone tests ST against 0. -/
theorem tickCountsBothTimersDown : Obligations.TickCountsBothTimersDown := by
  intro s
  refine ⟨_, rfl, countDown_toNat s.dt, countDown_toNat s.st, fun hactive => ?_, fun hsilent => ?_, tickTimers_changes s⟩
  · rw [tickTimers_reply, decide_eq_true hactive]
  · rw [tickTimers_reply, decide_eq_false (by omega)]

/-- Settles O48: one key cell or the redraw flag written, nothing for a read, and the two refusals. -/
theorem keyRedrawAndRefusedCalls : Obligations.KeyRedrawAndRefusedCalls :=
  fun s =>
    ⟨fun k b => ⟨_, setKey_of_lt k b s, Vector.getElem_set_self k.isLt, keys_set_changes s k b⟩,
      fun _ b habove => setKey_of_above b s habove, ⟨_, rfl, rfl, setRedraw_changes s false⟩, rfl, step_of_unloaded s⟩

end Sys2Proof.Machine
end

section
/-! The load of the program image (R182): what each kind of source does before the load, and the refusal after it. -/

namespace Sys2Proof.Machine

section
variable {s : State} {bytes : List Byte}

theorem loadProgram_of_fits (hl : s.loaded = false) (hlen : bytes.length ≤ 3584) :
    loadProgram (some bytes) s = .next { s.writeBytes 0x200 bytes with loaded := true, reply := .ok } :=
  (if_neg (by simp [hl])).trans (if_pos (decide_eq_true hlen))

theorem loadProgram_of_too_long (hl : s.loaded = false) (hlen : 3584 < bytes.length) :
    loadProgram (some bytes) s = .next { s with reply := .loadError (.capacity bytes.length) } :=
  (if_neg (by simp [hl])).trans (if_neg fun hw => absurd (of_decide_eq_true hw) (Nat.not_le.2 hlen))

theorem loadProgram_of_unreadable (hl : s.loaded = false) :
    loadProgram none s = .next { s with reply := .loadError .unreadable } :=
  if_neg (by simp [hl])

theorem loadProgram_of_loaded (hl : s.loaded = true) (source : Option (List Byte)) :
    loadProgram source s = .refused .secondLoad :=
  if_pos hl

end

theorem setLoaded_setReply_changes (s : State) (b : Bool) (r : Reply) :
    ChangesOnly (fun p => p = .loaded ∨ p = .reply) s { s with loaded := b, reply := r } := by
  intro p hp
  cases p
  case loaded => exact absurd (.inl rfl) hp
  case reply => exact absurd (.inr rfl) hp
  all_goals rfl

/-- A larger frame allows every transition that a smaller one does. -/
theorem ChangesOnly.mono {may may' : Part → Prop} {s t : State} (h : ChangesOnly may s t) (hle : ∀ p, may p → may' p) :
    ChangesOnly may' s t :=
  fun p hp => h p fun hm => hp (hle p hm)

/-- Settles O47: an image that fits ends at 0xFFF at the latest, so the block written at 0x200 is read back; the other three
sources are told apart by `loaded` and by the length. -/
theorem loadCopiesTheImageOnce : Obligations.LoadCopiesTheImageOnce := by
  intro s hmem
  refine ⟨fun hl => ⟨fun bytes hlen => ⟨_, loadProgram_of_fits hl hlen, fun j b hj => ?copied, rfl, rfl, ?frame⟩,
    fun _ hlen => loadProgram_of_too_long hl hlen, loadProgram_of_unreadable hl⟩, loadProgram_of_loaded⟩
  case copied => exact s.readByte_writeBytes_same 0x200 j b bytes (by omega) hmem hj
  case frame =>
    have hcopy := writeBytes_changes s 0x200 bytes
      (fun p => p = .loaded ∨ p = .reply ∨ ∃ j, j < bytes.length ∧ p = .byte (0x200 + j))
      fun j hj => .inr (.inr ⟨j, hj, rfl⟩)
    exact hcopy.trans ((setLoaded_setReply_changes _ true .ok).mono fun p hp => hp.imp_right .inl)

end Sys2Proof.Machine
end
